-- ==== Sys2Proof/Word.lean ====
section
/-! DEFINITION. The word types of E2M-CORE: levels, bytes, request words (00_scope.md R8, R11; 30_encoding.md R70). -/

namespace Sys2Proof

/-- A line level or a one-bit value: `true` is 1 (high), `false` is 0 (low) (R11). -/
abbrev Level := Bool

/-- A `u8` (R11): an argument byte, a command byte, a value byte, a checksum byte. -/
abbrev Byte := BitVec 8

/-- A host request word, format H: 12 bits (R70). -/
abbrev RequestWord := BitVec 12

end Sys2Proof
end

