-- ==== Sys2Proof/Config.lean ====
section
/-! DEFINITION. What is fixed when a core is built (10_state.md R38, 00_scope.md R8, R9) and the free values.
The timing parameters and the free values are opaque: no proof can use a value of theirs. The command codes are arguments. -/

namespace Sys2Proof

/-- `F_CLK`, the frequency of `clk` in Hz: an open parameter (R9, D7). -/
opaque Config.fClk : Nat

/-- `DELAY_FACTOR`, the `clk` cycles of one delay unit: an open parameter (R9, R10, D7). -/
opaque Config.delayFactor : Nat

/-- `T_SU_STA`, the delay units busStart holds both lines high: an open parameter (R9). -/
opaque Config.tSuSta : Nat

/-- `T_HD_STA`, the delay units busStart holds after the data line falls: an open parameter, may be 0 (R9). -/
opaque Config.tHdSta : Nat

/-- `T_STOP`, the delay units of each timed step of busStop: an open parameter (R9). -/
opaque Config.tStop : Nat

/-- `T_PH`, the delay units of each bit phase: an open parameter (R9). -/
opaque Config.tPh : Nat

/-- `T_POWERUP`, the sensor's ready time: an open parameter of the host's boot sequence (R233, D20). -/
opaque Config.tPowerup : Nat

/-- `T_MEAS`, the sensor's measurement time: an open parameter of the host (R244, D31). -/
opaque Config.tMeas : Nat

/-- `N_ATTEMPTS`, the attempts of one READ_A_BYTE, fixed by the source (R8, R38). -/
def Config.nAttempts : Nat := 3

/-- The invalid-value sentinel, fixed by the source (R8). -/
def Config.sentinel : Byte := 0xFF#8

/-- FREE VALUE (log 3): the level the environment presents at the n-th Sample when no script gives it
(R16, R63: any bit at every sample). -/
opaque Config.draw : Nat → Level

/-- FREE VALUE (log 2): the n-th unspecified value of width `w`, what a register holds after an `rst` edge
that leaves it unspecified (R230). -/
opaque Config.freeBits : (w : Nat) → Nat → BitVec w

/-- The command bytes `CMD_*`, named 8-bit parameters that the source leaves open (R9, R80, 93_implementation_defined.md
U5): an argument of the decoder, the encoder and the assembler, and of the machine through its state's `codes`. -/
structure CommandCodes where
  /-- `CMD_TYPE_LB`, sensor-type low byte (R80). -/
  cmdTypeLb : Byte
  /-- `CMD_TYPE_HB`, sensor-type high byte (R80). -/
  cmdTypeHb : Byte
  /-- `CMD_PARAMS`, parameters (R80). -/
  cmdParams : Byte
  /-- `CMD_STATUS`, status (R80). -/
  cmdStatus : Byte
  /-- `CMD_HUM_LB`, humidity low (R80). -/
  cmdHumLb : Byte
  /-- `CMD_HUM_HB`, humidity high (R80). -/
  cmdHumHb : Byte
  /-- `CMD_TEMP_LB`, temperature low (R80). -/
  cmdTempLb : Byte
  /-- `CMD_TEMP_HB`, temperature high (R80). -/
  cmdTempHb : Byte
  /-- `CMD_PRES_LB`, pressure low (R80). -/
  cmdPresLb : Byte
  /-- `CMD_PRES_HB`, pressure high (R80). -/
  cmdPresHb : Byte
  /-- `CMD_CO2_LB`, CO2-average low (R80). -/
  cmdCo2Lb : Byte
  /-- `CMD_CO2_HB`, CO2-average high (R80). -/
  cmdCo2Hb : Byte
deriving DecidableEq, Repr

/-- The default values of R80, which the opcode table's rows show. PRESUMED (log 9): general knowledge, not in the source
(93_implementation_defined.md G2). -/
def CommandCodes.default : CommandCodes where
  cmdTypeLb := 0x11#8
  cmdTypeHb := 0x41#8
  cmdParams := 0x31#8
  cmdStatus := 0x71#8
  cmdHumLb := 0x81#8
  cmdHumHb := 0x91#8
  cmdTempLb := 0xA1#8
  cmdTempHb := 0xB1#8
  cmdPresLb := 0xC1#8
  cmdPresHb := 0xD1#8
  cmdCo2Lb := 0xE1#8
  cmdCo2Hb := 0xF1#8

end Sys2Proof
end

