-- ==== Sys2Proof/Syntax.lean ====
section
/-! DEFINITION. The instructions: one constructor per row of spec/opcode_table.json. The sixteen rows of format H are
host requests and carry the argument byte, the ignored ones too, because the core latches it (30_encoding.md R70-R73,
10_state.md R25). The twelve rows of format E2_CMD are command bytes of the bus (30_encoding.md R80). -/

namespace Sys2Proof

/-- What the opcode table lists: 9 host ops, 7 reserved op codes, 12 command bytes. -/
inductive Instr where
  /-- DELAY, the delay in units, 0 to 255 (R100). -/
  | delay (units : Byte)
  /-- BUS_START; `arg` is ignored, but latched (R102, R71). -/
  | busStart (arg : Byte)
  /-- BUS_STOP; `arg` is ignored, but latched (R105, R71). -/
  | busStop (arg : Byte)
  /-- SEND_BYTE, the byte to send (R121). -/
  | sendByte (value : Byte)
  /-- READ_BYTE; `arg` is ignored, but latched (R125, R71). -/
  | readByte (arg : Byte)
  /-- CHECK_ACK; `arg` is ignored, but latched (R129, R71). -/
  | checkAck (arg : Byte)
  /-- SEND_ACK; `arg` is ignored, but latched (R131, R71). -/
  | sendAck (arg : Byte)
  /-- SEND_NAK; `arg` is ignored, but latched (R133, R71). -/
  | sendNak (arg : Byte)
  /-- READ_A_BYTE, the command byte; all 256 values are accepted (R155, R51). -/
  | readAByte (cmd : Byte)
  /-- reserved op code 0x0 (R73). -/
  | reserved0 (arg : Byte)
  /-- reserved op code 0xA (R73). -/
  | reservedA (arg : Byte)
  /-- reserved op code 0xB (R73). -/
  | reservedB (arg : Byte)
  /-- reserved op code 0xC (R73). -/
  | reservedC (arg : Byte)
  /-- reserved op code 0xD (R73). -/
  | reservedD (arg : Byte)
  /-- reserved op code 0xE (R73). -/
  | reservedE (arg : Byte)
  /-- reserved op code 0xF (R73). -/
  | reservedF (arg : Byte)
  /-- The command byte CMD_TYPE_LB (R80). -/
  | cmdTypeLb
  /-- The command byte CMD_TYPE_HB (R80). -/
  | cmdTypeHb
  /-- The command byte CMD_PARAMS (R80). -/
  | cmdParams
  /-- The command byte CMD_STATUS (R80). -/
  | cmdStatus
  /-- The command byte CMD_HUM_LB (R80). -/
  | cmdHumLb
  /-- The command byte CMD_HUM_HB (R80). -/
  | cmdHumHb
  /-- The command byte CMD_TEMP_LB (R80). -/
  | cmdTempLb
  /-- The command byte CMD_TEMP_HB (R80). -/
  | cmdTempHb
  /-- The command byte CMD_PRES_LB (R80). -/
  | cmdPresLb
  /-- The command byte CMD_PRES_HB (R80). -/
  | cmdPresHb
  /-- The command byte CMD_CO2_LB (R80). -/
  | cmdCo2Lb
  /-- The command byte CMD_CO2_HB (R80). -/
  | cmdCo2Hb
deriving DecidableEq, Repr

end Sys2Proof
end

