-- ==== Sys2Proof/WellFormed.lean ====
section
/-! DEFINITION. Well-formedness: of an instruction (nothing can be ill-formed: decoding is total on format H and every
argument byte is accepted, 30_encoding.md R71-R73, R83), of a line of the host's assembler (R81), and of an assignment of
values to the command parameters (R80). -/

namespace Sys2Proof

/-- Every instruction is well formed: each of the 256 argument bytes is accepted by every op (R51, R71), a reserved
op code is accepted too (R73), and a command byte of R80 carries no operand. -/
def Instr.wellFormed : Instr → Bool
  | .delay _ => true
  | .busStart _ => true
  | .busStop _ => true
  | .sendByte _ => true
  | .readByte _ => true
  | .checkAck _ => true
  | .sendAck _ => true
  | .sendNak _ => true
  | .readAByte _ => true
  | .reserved0 _ => true
  | .reservedA _ => true
  | .reservedB _ => true
  | .reservedC _ => true
  | .reservedD _ => true
  | .reservedE _ => true
  | .reservedF _ => true
  | .cmdTypeLb => true
  | .cmdTypeHb => true
  | .cmdParams => true
  | .cmdStatus => true
  | .cmdHumLb => true
  | .cmdHumHb => true
  | .cmdTempLb => true
  | .cmdTempHb => true
  | .cmdPresLb => true
  | .cmdPresHb => true
  | .cmdCo2Lb => true
  | .cmdCo2Hb => true

/-- Whether an instruction is one of the named command bytes (R80), and so may stand as an assembler operand (R81). -/
def Instr.isCommand : Instr → Bool
  | .delay _ => false
  | .busStart _ => false
  | .busStop _ => false
  | .sendByte _ => false
  | .readByte _ => false
  | .checkAck _ => false
  | .sendAck _ => false
  | .sendNak _ => false
  | .readAByte _ => false
  | .reserved0 _ => false
  | .reservedA _ => false
  | .reservedB _ => false
  | .reservedC _ => false
  | .reservedD _ => false
  | .reservedE _ => false
  | .reservedF _ => false
  | .cmdTypeLb => true
  | .cmdTypeHb => true
  | .cmdParams => true
  | .cmdStatus => true
  | .cmdHumLb => true
  | .cmdHumHb => true
  | .cmdTempLb => true
  | .cmdTempHb => true
  | .cmdPresLb => true
  | .cmdPresHb => true
  | .cmdCo2Lb => true
  | .cmdCo2Hb => true

/-- The nine mnemonics a host program may use; a reserved op has none (R81). -/
inductive Mnemonic where
  | delay | busStart | busStop | sendByte | readByte | checkAck | sendAck | sendNak | readAByte
deriving DecidableEq, Repr

/-- An assembler operand: a number, or a command written by its parameter name (R81). DESIGN CHOICE (log 20): the name may
stand wherever an operand may. -/
inductive AsmOperand where
  | imm (n : Nat)
  | param (command : Instr)
deriving DecidableEq, Repr

/-- One line of a host program: an op with its operands, or a bare word, `.word`, as a reserved op must be written (R81).
DESIGN CHOICE (log 20): a bare word may be of any op. -/
inductive AsmLine where
  | op (m : Mnemonic) (operands : List AsmOperand)
  | word (w : Nat)
deriving DecidableEq, Repr

/-- A number is an `imm8`, 0 to 255; a name is a command parameter's (R81). -/
def AsmOperand.wellFormed : AsmOperand → Bool
  | .imm n => decide (n < 256)
  | .param c => c.isCommand

/-- DELAY, SEND_BYTE and READ_A_BYTE take exactly one `imm8`; the other six ops take none (R81). -/
def Mnemonic.takesOperand : Mnemonic → Bool
  | .delay => true
  | .busStart => false
  | .busStop => false
  | .sendByte => true
  | .readByte => false
  | .checkAck => false
  | .sendAck => false
  | .sendNak => false
  | .readAByte => true

/-- A line has the operands its op takes, each well formed; a bare word has 12 bits (R70, R81). DESIGN CHOICE (log 20): R81
leaves open whether a parameter name may be the operand of DELAY, which is no command operand, and whether `.word` may hold
an op that is not reserved; both are taken. -/
def AsmLine.wellFormed : AsmLine → Bool
  | .op m [] => !m.takesOperand
  | .op m [o] => m.takesOperand && o.wellFormed
  | .op _ (_ :: _ :: _) => false
  | .word w => decide (w < 4096)

/-- The twelve values of the command parameters, in the order of R80. -/
def CommandCodes.values (codes : CommandCodes) : List Byte :=
  [codes.cmdTypeLb, codes.cmdTypeHb, codes.cmdParams, codes.cmdStatus, codes.cmdHumLb, codes.cmdHumHb, codes.cmdTempLb,
   codes.cmdTempHb, codes.cmdPresLb, codes.cmdPresHb, codes.cmdCo2Lb, codes.cmdCo2Hb]

/-- No two command parameters have one value, so that a byte names at most one of them (log 9). The core needs no such
thing: it takes every value (R51). -/
def CommandCodes.distinct (codes : CommandCodes) : Bool := decide codes.values.Nodup

end Sys2Proof
end

