-- ==== Sys2Proof/Decode.lean ====
section
/-! DEFINITION. The decoder and the encoder: format H (30_encoding.md R70-R73), format E2_CMD (R80), the assembler (R81)
and the pseudo-instruction ATTEMPT (R82). -/

namespace Sys2Proof

/-- The result of the decode function of R72: the nine ops, or RESERVED. -/
inductive OpKind where
  | delay | busStart | busStop | sendByte | readByte | checkAck | sendAck | sendNak | readAByte | reserved
deriving DecidableEq, Repr

/-- `decode(op)`, total on all 16 op codes (R72). -/
def decodeOp (op : BitVec 4) : OpKind :=
  match op.toNat with
  | 0x1 => .delay
  | 0x2 => .busStart
  | 0x3 => .busStop
  | 0x4 => .sendByte
  | 0x5 => .readByte
  | 0x6 => .checkAck
  | 0x7 => .sendAck
  | 0x8 => .sendNak
  | 0x9 => .readAByte
  | _ => .reserved

/-- The field `op = W[11:8]` of a request word (R70). -/
def requestOp (w : RequestWord) : BitVec 4 := w.extractLsb' 8 4

/-- The field `arg = W[7:0]` of a request word (R70). -/
def requestArg (w : RequestWord) : Byte := w.extractLsb' 0 8

/-- The request word with the given fields (R70). -/
def requestWord (op : BitVec 4) (arg : Byte) : RequestWord := op ++ arg

/-- The request of a given op code and argument byte, the seven reserved codes kept apart (R72, R73). -/
def decodeFields (op : BitVec 4) (arg : Byte) : Instr :=
  match op.toNat with
  | 0x0 => .reserved0 arg
  | 0x1 => .delay arg
  | 0x2 => .busStart arg
  | 0x3 => .busStop arg
  | 0x4 => .sendByte arg
  | 0x5 => .readByte arg
  | 0x6 => .checkAck arg
  | 0x7 => .sendAck arg
  | 0x8 => .sendNak arg
  | 0x9 => .readAByte arg
  | 0xA => .reservedA arg
  | 0xB => .reservedB arg
  | 0xC => .reservedC arg
  | 0xD => .reservedD arg
  | 0xE => .reservedE arg
  | _ => .reservedF arg

/-- Decoding a host request word, total on all 4096 words (R70, R72). -/
def decodeRequest (w : RequestWord) : Instr := decodeFields (requestOp w) (requestArg w)

/-- The command bytes of R80, at given values, with the rows of the opcode table they are. -/
def commandTable (codes : CommandCodes) : List (Byte × Instr) :=
  [(codes.cmdTypeLb, .cmdTypeLb),
   (codes.cmdTypeHb, .cmdTypeHb),
   (codes.cmdParams, .cmdParams),
   (codes.cmdStatus, .cmdStatus),
   (codes.cmdHumLb, .cmdHumLb),
   (codes.cmdHumHb, .cmdHumHb),
   (codes.cmdTempLb, .cmdTempLb),
   (codes.cmdTempHb, .cmdTempHb),
   (codes.cmdPresLb, .cmdPresLb),
   (codes.cmdPresHb, .cmdPresHb),
   (codes.cmdCo2Lb, .cmdCo2Lb),
   (codes.cmdCo2Hb, .cmdCo2Hb)]

/-- Why a decoding is rejected. -/
inductive DecodeError where
  /-- Raised by `decodeCommand`: no parameter of R80 has this byte; safe, the core accepts the byte all the same as
  the argument of READ_A_BYTE (R51). -/
  | unnamedCommand (b : Byte)
  /-- Raised by `decodeTableWord`: the value has bits above its format's width (R70, R80); safe, no such word exists. -/
  | bitsAboveFormat (w : Nat)
deriving DecidableEq, Repr

/-- Decoding a byte of format E2_CMD (R80), the parameters at given values: one of the twelve named commands, or rejected
by name. Of two parameters with one value the first is meant (log 9). -/
def decodeCommand (codes : CommandCodes) (b : Byte) : Except DecodeError Instr :=
  match (commandTable codes).find? (fun row => row.1 == b) with
  | some row => .ok row.2
  | none => .error (.unnamedCommand b)

/-- The two formats of the opcode table. -/
inductive Encoding where
  /-- Format H, a host request word (R70). -/
  | word (w : RequestWord)
  /-- Format E2_CMD, a command byte on the bus (R80). -/
  | byte (b : Byte)
deriving DecidableEq, Repr

/-- The decoder, total on both formats, for given values of the command parameters. -/
def decode (codes : CommandCodes) : Encoding → Except DecodeError Instr
  | .word w => .ok (decodeRequest w)
  | .byte b => decodeCommand codes b

/-- The encoder, written from R70, R72 and R80, for given values of the command parameters. -/
def encode (codes : CommandCodes) : Instr → Encoding
  | .delay n => .word (requestWord 0x1#4 n)
  | .busStart arg => .word (requestWord 0x2#4 arg)
  | .busStop arg => .word (requestWord 0x3#4 arg)
  | .sendByte v => .word (requestWord 0x4#4 v)
  | .readByte arg => .word (requestWord 0x5#4 arg)
  | .checkAck arg => .word (requestWord 0x6#4 arg)
  | .sendAck arg => .word (requestWord 0x7#4 arg)
  | .sendNak arg => .word (requestWord 0x8#4 arg)
  | .readAByte c => .word (requestWord 0x9#4 c)
  | .reserved0 arg => .word (requestWord 0x0#4 arg)
  | .reservedA arg => .word (requestWord 0xA#4 arg)
  | .reservedB arg => .word (requestWord 0xB#4 arg)
  | .reservedC arg => .word (requestWord 0xC#4 arg)
  | .reservedD arg => .word (requestWord 0xD#4 arg)
  | .reservedE arg => .word (requestWord 0xE#4 arg)
  | .reservedF arg => .word (requestWord 0xF#4 arg)
  | .cmdTypeLb => .byte codes.cmdTypeLb
  | .cmdTypeHb => .byte codes.cmdTypeHb
  | .cmdParams => .byte codes.cmdParams
  | .cmdStatus => .byte codes.cmdStatus
  | .cmdHumLb => .byte codes.cmdHumLb
  | .cmdHumHb => .byte codes.cmdHumHb
  | .cmdTempLb => .byte codes.cmdTempLb
  | .cmdTempHb => .byte codes.cmdTempHb
  | .cmdPresLb => .byte codes.cmdPresLb
  | .cmdPresHb => .byte codes.cmdPresHb
  | .cmdCo2Lb => .byte codes.cmdCo2Lb
  | .cmdCo2Hb => .byte codes.cmdCo2Hb

/-- The encoding a row of the opcode table with `nbits` bits names: a row of at most 8 bits is of format E2_CMD, a
longer one of format H, whose word stands in the low 12 bits (DESIGN CHOICE, log 14). -/
def tableEncoding (nbits w : Nat) : Except DecodeError Encoding :=
  if nbits ≤ 8 then
    if w < 256 then .ok (.byte (BitVec.ofNat 8 w)) else .error (.bitsAboveFormat w)
  else
    if w < 4096 then .ok (.word (BitVec.ofNat 12 w)) else .error (.bitsAboveFormat w)

/-- What the decoder reads from an instruction whose bits are `w`, numbered as the opcode table numbers them. The table shows
the command bytes at their default values, so these are meant here (log 9). -/
def decodeTableWord (nbits w : Nat) : Option Instr :=
  match tableEncoding nbits w with
  | .error _ => none
  | .ok e =>
    match decode .default e with
    | .ok i => some i
    | .error _ => none

/-- The op code a mnemonic stands for (R72, R81). -/
def Mnemonic.opcode : Mnemonic → BitVec 4
  | .delay => 0x1#4
  | .busStart => 0x2#4
  | .busStop => 0x3#4
  | .sendByte => 0x4#4
  | .readByte => 0x5#4
  | .checkAck => 0x6#4
  | .sendAck => 0x7#4
  | .sendNak => 0x8#4
  | .readAByte => 0x9#4

/-- The byte of an encoded command, 0x00 for a host request (which is no operand, R81). -/
def Encoding.operandByte : Encoding → Byte
  | .byte b => b
  | .word _ => 0x00#8

/-- The value of an assembler operand: the number, or the named parameter's byte (R80, R81). -/
def AsmOperand.value (codes : CommandCodes) : AsmOperand → Byte
  | .imm n => BitVec.ofNat 8 n
  | .param c => (encode codes c).operandByte

/-- The assembler (R81): one request word per well-formed line; an op without operand gets `arg = 0x00`,
and a command written by name the value its parameter has. -/
def assemble (codes : CommandCodes) (l : AsmLine) : Option RequestWord :=
  if l.wellFormed then
    match l with
    | .op m [] => some (requestWord m.opcode 0x00#8)
    | .op m (o :: _) => some (requestWord m.opcode (o.value codes))
    | .word w => some (BitVec.ofNat 12 w)
  else none

/-- The pseudo-instruction `ATTEMPT cmd`: the eight lines it expands to (R82). -/
def attemptExpansion (cmd : AsmOperand) : List AsmLine :=
  [.op .busStart [], .op .sendByte [cmd], .op .checkAck [], .op .readByte [], .op .sendAck [], .op .readByte [],
   .op .sendNak [], .op .busStop []]

end Sys2Proof
end

