-- ==== Sys2Proof/Machine/State.lean ====
section
/-! DEFINITION. The state of E2M-CORE as plain data (10_state.md), its state after reset, its faults and refusals. -/

namespace Sys2Proof.Machine

/-- The two bus lines (R17). -/
inductive Line where
  | sda
  | scl
deriving DecidableEq, Repr

/-- The drive state `drv(L)` of a line: released, driven low, driven high (R21). -/
inductive Drive where
  | rel
  | d0
  | d1
deriving DecidableEq, Repr

/-- An event of the core's trace (R12, R28). -/
inductive Event where
  /-- A request was accepted (R25). -/
  | accept (op : BitVec 4) (arg : Byte)
  /-- `Drive(L, b)` (R12). -/
  | drive (l : Line) (b : Level)
  /-- `Release(L)` (R12). -/
  | release (l : Line)
  /-- `Wait(n)`, in delay units (R12). -/
  | wait (n : Nat)
  /-- `Sample(L, b)` with the level read (R12). -/
  | sample (l : Line) (b : Level)
  /-- `Respond(d, e)` (R12, R26). -/
  | respond (d : Byte) (e : Bool)
deriving DecidableEq, Repr

/-- Where in the running request the sequencer stands: the op's own event list, or the engine state of a
READ_A_BYTE (R32, R156). -/
inductive Phase where
  /-- The event list of the request's op; READ_A_BYTE's and a reserved op's is empty. -/
  | op
  | attempt
  | sendCmd
  | checkAck
  | readValue
  | ackFailed
  | validate
  | accept
  | retry
deriving DecidableEq, Repr

/-- The sequencer position, in the place of a program counter: IDLE, or a phase with the index of the next event in its list (R32).
BUSY is 1 exactly when the position is not IDLE (R27, R32), so it is stored here and nowhere else (log 11). -/
inductive Pos where
  | idle
  | run (phase : Phase) (step : Nat)
deriving DecidableEq, Repr

/-- What the host does in one coming clock cycle (R214; log 5). -/
structure HostCycle where
  /-- The input `rst` in that cycle (R24). -/
  rst : Bool
  /-- The host puts its next request on the port in that cycle, if none stands there. -/
  offer : Bool
deriving DecidableEq, Repr

/-- The machine: the six parts of R20, then the model's own fields for the host and the slave (R15) and the command codes
(R9; log 9). -/
structure State where
  /-- `drv(SDA)` (R21). -/
  sda : Drive
  /-- `drv(SCL)` (R21, R22). -/
  scl : Drive
  /-- The input `rst` (R24). -/
  rst : Bool
  /-- The input `req_valid` (R24). -/
  reqValid : Bool
  /-- The input `req_op` (R24). -/
  reqOp : BitVec 4
  /-- The input `req_arg` (R24). -/
  reqArg : Byte
  /-- The pulse of the last `Respond`, 1 for the one cycle after it (R26); the output `rsp_valid` is this pulse while
  `rst = 0` (R24, R230; `State.rspValid`). -/
  rspPulse : Bool
  /-- `RSP_DATA`, the output `rsp_data` (R26, R30). -/
  rspData : Byte
  /-- `RSP_ERR`, the output `rsp_err` (R26, R30). -/
  rspErr : Bool
  /-- `OP` (R30). -/
  op : BitVec 4
  /-- `ARG` (R30). -/
  arg : Byte
  /-- `SHREG` (R30). -/
  shreg : Byte
  /-- `BITIDX` (R30). -/
  bitidx : BitVec 3
  /-- `CMD` (R30). -/
  cmd : Byte
  /-- `VAL` (R30). -/
  val : Byte
  /-- `CHK` (R30). -/
  chk : Byte
  /-- `ATTEMPT` (R30). -/
  attempt : BitVec 2
  /-- `ACKBIT`, the last sampled acknowledge level, 0 = ACK (R30, R33). -/
  ackbit : Level
  /-- `OK` (R30, R33). -/
  ok : Bool
  /-- The sequencer position, and with it `BUSY` (R27, R30, R32). -/
  pos : Pos
  /-- `DCNT`, the delay counter (R35; its width is log 15). -/
  dcnt : Nat
  /-- The event trace, newest event first (R28). -/
  rtrace : List Event
  /-- The model's own: the requests the host has still to offer, next first (R214; log 5). -/
  hostProgram : List RequestWord
  /-- The model's own: what the host does in the cycles to come, next first; after them it raises `rst` no more and offers
  each request as soon as it can (R214; log 5). -/
  schedule : List HostCycle
  /-- The model's own: the slave script, the levels of the next Samples, next first (R16; log 3). -/
  draws : List Level
  /-- The model's own: how many Samples were made, the argument of the free value `Config.draw` (log 3). -/
  drawIx : Nat
  /-- The model's own: the slave holds SDA low, whatever the core drives (R23; log 4). -/
  sdaHeld : Bool
  /-- The model's own: the argument of the free value `Config.freeBits` (log 2). -/
  freeIx : Nat
  /-- The model's own: one step shows one edge of the sequencer, not a whole request (log 6). -/
  edgewise : Bool
  /-- The command bytes `CMD_*` the machine is built with: parameters of the model (R9, R80). DESIGN CHOICE (log 9): they
  stand in the state, and no step writes them. -/
  codes : CommandCodes
deriving DecidableEq, Repr

/-- Why the machine stops. -/
inductive Fault where
  /-- Raised by every op, edge or idle step in which the slave holds SDA low while the core drives it high (R23, D34,
  U14): outside the spec, a model should fault. Safe: a stop where the spec says nothing. -/
  | contention
deriving DecidableEq, Repr

/-- Why an instruction is refused. -/
inductive Refusal where
  /-- Raised by no arm of `exec` now; kept for an arm without a meaning. Safe. -/
  | notModelled (mnemonic : String)
deriving DecidableEq, Repr

/-- The machine right after reset (R36, R230). The lines, `rsp_valid`, the position, DCNT and the trace have the spec's
values. DESIGN CHOICE (log 1): the registers R36 leaves unspecified hold zero. DESIGN CHOICE (logs 2 to 6): the inputs
are at rest and the model's own fields empty. PRESUMED (log 9): the command codes are the defaults. -/
def State.reset : State where
  sda := .d1
  scl := .d1
  rst := false
  reqValid := false
  reqOp := 0#4
  reqArg := 0#8
  rspPulse := false
  rspData := 0#8
  rspErr := false
  op := 0#4
  arg := 0#8
  shreg := 0#8
  bitidx := 0#3
  cmd := 0#8
  val := 0#8
  chk := 0#8
  attempt := 0#2
  ackbit := false
  ok := false
  pos := .idle
  dcnt := 0
  rtrace := []
  hostProgram := []
  schedule := []
  draws := []
  drawIx := 0
  sdaHeld := false
  freeIx := 0
  edgewise := false
  codes := .default

end Sys2Proof.Machine
end

