-- ==== Sys2Proof/Machine/Flags.lean ====
section
/-! DEFINITION. The flag computations: the checksum test behind OK (42_command_engine.md R153), the retry test (R154) and
the failure kinds (60_exceptions.md R200). -/

namespace Sys2Proof.Machine

/-- `(VAL + CMD) mod 256 = CHK`, the unsigned 8-bit sum with wrap-around (R153, R79). -/
def checksumMatches (val cmd chk : Byte) : Bool := val + cmd == chk

/-- `OK = 1 or ATTEMPT = N_ATTEMPTS`, the end of the attempts (R154). -/
def attemptsOver (ok : Bool) (attempt : BitVec 2) : Bool := ok || attempt.toNat == Config.nAttempts

/-- The failure kinds the core knows; code 0 is "no failure" (R200). STALE is the host's and has no code. -/
inductive Failure where
  | none
  | ackFail
  | chkFail
  | reservedOp
deriving DecidableEq, Repr

/-- The code of a failure kind; it is visible on no port (R200). -/
def Failure.code : Failure → Nat
  | .none => 0
  | .ackFail => 1
  | .chkFail => 2
  | .reservedOp => 3

/-- The outcome of the attempt that has just ended, read from the two flags: ACK_FAIL excludes CHK_FAIL (R200, R203). -/
def attemptFailure (ackbit : Level) (ok : Bool) : Failure :=
  if ackbit then .ackFail else if ok then .none else .chkFail

end Sys2Proof.Machine
end

