-- ==== Sys2Proof/Machine/Operands.lean ====
section
/-! DEFINITION. The operand forms (30_encoding.md R71; 00_scope.md R11): an argument byte as a count of delay units, as
the bits of a byte, and a bit widened to a byte. -/

namespace Sys2Proof.Machine

/-- The argument byte as DELAY's count of units, 0 to 255: unsigned, not scaled (R71, R100). -/
def delayUnits (arg : Byte) : Nat := arg.toNat

/-- `zext_8(b)`: a one-bit value as a byte (R11). -/
def zext8 (b : Level) : Byte := if b then 0x01#8 else 0x00#8

/-- `v[i]`: bit `i` of a byte, `i` held in the 3-bit register BITIDX (R11, R120). -/
def bitOf (v : Byte) (i : BitVec 3) : Level := v.getLsbD i.toNat

/-- `SHREG OR (zext_8(b) << i)`: a received bit OR-ed in at its bit position (R124). -/
def orBit (shreg : Byte) (b : Level) (i : BitVec 3) : Byte := shreg ||| (zext8 b <<< i.toNat)

end Sys2Proof.Machine
end

