-- ==== Sys2Proof/Machine/Ops.lean ====
section
/-! DEFINITION. The named operations over the state: pads and levels (10_state.md R21-R23), the host port (R24-R27), the
actions a procedure's list is made of (00_scope.md R12), Accept, Respond and reset. There are no traps: no exception is
taken anywhere (60_exceptions.md R205). -/

namespace Sys2Proof.Machine

/-- What one step answers. -/
abbrev Result := Host.Outcome State Fault Refusal

/-! ## The host port -/

/-- `BUSY`: a request is running (R27, R32). -/
def State.busy (s : State) : Bool :=
  match s.pos with
  | .idle => false
  | .run _ _ => true

/-- The output `req_ready = ¬BUSY`, and 0 while `rst = 1` (R25, R230). -/
def State.reqReady (s : State) : Bool := !s.busy && !s.rst

/-- The output `rsp_valid`: the pulse of a `Respond`, and 0 while `rst = 1` (R26, R230). -/
def State.rspValid (s : State) : Bool := s.rspPulse && !s.rst

/-- The event trace, oldest event first (R28). -/
def State.trace (s : State) : List Event := s.rtrace.reverse

/-- The host puts a request on its port (R214). -/
def State.offer (w : RequestWord) (s : State) : State :=
  { s with reqValid := true, reqOp := requestOp w, reqArg := requestArg w }

/-- The host puts its next request on the port, if it has one. A request that stands there already is held steady, to
its accepting edge (R214): the host has no move that withdraws or changes it. DESIGN CHOICE (log 5): of the spec's two words
on which way this assumption errs, the model lists R214's and U15's, toward proving (unsafe), not D2's, toward unprovable. -/
def State.offerNext (s : State) : State :=
  match s.reqValid, s.hostProgram with
  | false, w :: ws => { s with reqValid := true, reqOp := requestOp w, reqArg := requestArg w, hostProgram := ws }
  | false, [] => s
  | true, _ => s

/-- The host's move at a clock edge, its inputs for the cycle that begins there: in any cycle it may raise `rst`, and in any
cycle it may offer a request (R214). Which it does stands in `schedule` (log 5). -/
def State.hostMove (s : State) : State :=
  match s.schedule with
  | [] => { s with rst := false }.offerNext
  | c :: cs =>
    if c.offer then { s with rst := c.rst, schedule := cs }.offerNext else { s with rst := c.rst, schedule := cs }

/-! ## Pads and levels -/

/-- The drive state that drives a level (R21). -/
def Drive.ofLevel (b : Level) : Drive := if b then .d1 else .d0

/-- The output enable `L_oe` of a drive state (R21). -/
def Drive.oe : Drive → Bool
  | .rel => false
  | .d0 => true
  | .d1 => true

/-- The driven level `L_o` of a drive state, no value while the line is released (R21). -/
def Drive.out? : Drive → Option Level
  | .rel => none
  | .d0 => some false
  | .d1 => some true

/-- The level the environment presents at the `k`-th Sample from now: the script's, else the free value; low while the
slave holds SDA low (R16; logs 3, 4). -/
def State.sampleAt (s : State) (k : Nat) : Level :=
  !s.sdaHeld && (s.draws[k]?).getD (Config.draw (s.drawIx + k))

/-- `lvl(SDA)` (R23). -/
def State.lvlSda (s : State) : Level :=
  match s.sda with
  | .d0 => false
  | .d1 => true
  | .rel => s.sampleAt 0

/-- `lvl(SCL) = (drv(SCL) = D1 ? 1 : 0)` (R23). -/
def State.lvlScl (s : State) : Level :=
  match s.scl with
  | .d1 => true
  | .d0 => false
  | .rel => false

/-- Contention: the slave holds SDA low while the core drives it high (R23, U14). -/
def State.contends (s : State) : Bool := s.sdaHeld && s.sda == .d1

/-- A line's drive state is written (R21). -/
def State.setLine (l : Line) (d : Drive) (s : State) : State :=
  match l with
  | .sda => { s with sda := d }
  | .scl => { s with scl := d }

/-- An event is added to the trace (R28). -/
def State.emit (e : Event) (s : State) : State := { s with rtrace := e :: s.rtrace }

/-! ## The actions of a procedure -/

/-- A line of a procedure's pseudocode that writes a register and is no event (R12). -/
inductive RegWrite where
  /-- `BITIDX <- i` (R120, R124). -/
  | setBitidx (i : BitVec 3)
  /-- `SHREG <- 0x00` (R124). -/
  | clearShreg
  /-- `VAL <- readByte()`, the value readByte returns (R152). -/
  | latchVal
  /-- `CHK <- readByte()` (R152). -/
  | latchChk
deriving DecidableEq, Repr

/-- One register write (R120, R124, R152). -/
def RegWrite.run : RegWrite → State → State
  | .setBitidx i, s => { s with bitidx := i }
  | .clearShreg, s => { s with shreg := 0x00#8 }
  | .latchVal, s => { s with val := s.shreg }
  | .latchChk, s => { s with chk := s.shreg }

/-- Register writes, in their order (R13). -/
def runWrites : List RegWrite → State → State
  | [], s => s
  | w :: ws, s => runWrites ws (w.run s)

/-- One event of a procedure (R12), with the register writes that belong to it. A list of these is the event list that the
sequencer's step indexes (R32). -/
inductive Act where
  /-- `Drive(L, b)`. -/
  | drive (l : Line) (b : Level)
  /-- `Drive(SDA, v[i])` with `i` in BITIDX (R120). -/
  | driveBit (v : Byte)
  /-- `Release(L)`. -/
  | release (l : Line)
  /-- `Wait(n)`. -/
  | wait (n : Nat)
  /-- `b <- Sample(SDA); SHREG <- SHREG OR (zext_8(b) << i)` with `i` in BITIDX (R124). DESIGN CHOICE (log 19): SHREG takes
  the OR at the Sample's own edge; the spec leaves open at which edge between the Sample and the next event (R240). -/
  | sampleBit
  /-- `a <- Sample(SDA); ACKBIT <- a` (R128). DESIGN CHOICE (log 19): ACKBIT takes the level at the Sample's own edge; the
  spec leaves open at which edge between the Sample and the next event (R240). -/
  | sampleAck
  /-- Register writes, then the event `Drive(SCL, 0)` that follows them: where the procedures write a register between
  events, but for the two writes of a sampled level above (R120, R124, R152). DESIGN CHOICE (log 19): the writes happen at
  the edge of the event that follows them. -/
  | lowAfter (writes : List RegWrite)
deriving DecidableEq, Repr

/-- `Sample(SDA)`: the level is read once and recorded, and the environment's draw is used up (R12, R16). -/
def State.sampleSda (s : State) : State :=
  { s with rtrace := .sample .sda s.lvlSda :: s.rtrace, draws := s.draws.tail, drawIx := s.drawIx + 1 }

/-- One action, whole: a Wait counts DCNT down to 0 within it (R12, R35). SHREG and ACKBIT take a sampled level at the
Sample's own edge, all other registers change at the edge of the event that follows their write: DESIGN CHOICE (log 19). -/
def Act.run : Act → State → State
  | .drive l b, s => (s.setLine l (Drive.ofLevel b)).emit (.drive l b)
  | .driveBit v, s => (s.setLine .sda (Drive.ofLevel (bitOf v s.bitidx))).emit (.drive .sda (bitOf v s.bitidx))
  | .release l, s => (s.setLine l .rel).emit (.release l)
  | .wait n, s => { s with dcnt := 0, rtrace := .wait n :: s.rtrace }
  | .sampleBit, s => { s.sampleSda with shreg := orBit s.shreg s.lvlSda s.bitidx }
  | .sampleAck, s => { s.sampleSda with ackbit := s.lvlSda }
  | .lowAfter ws, s => ((runWrites ws s).setLine .scl .d0).emit (.drive .scl false)

/-- A list of actions, in its order (R13). -/
def runActs : List Act → State → State
  | [], s => s
  | a :: as, s => runActs as (a.run s)

/-- Whether an action drives SDA high; of the eight `driveBit v` of a sendByte one does exactly when `v` is not 0. -/
def Act.drivesSdaHigh : Act → Bool
  | .drive .sda b => b
  | .drive .scl _ => false
  | .driveBit v => v != 0x00#8
  | .release _ => false
  | .wait _ => false
  | .sampleBit => false
  | .sampleAck => false
  | .lowAfter _ => false

/-! ## Accept, Respond, reset -/

/-- The accepting edge: `OP` and `ARG` are latched, `BUSY <- 1`, the pulse `rsp_valid` is over, and the request is taken
from the port (R25, R26, R28). -/
def State.accept (op : BitVec 4) (arg : Byte) (s : State) : State :=
  { s with
    reqValid := false, op := op, arg := arg, pos := .run .op 0, rspPulse := false
    rtrace := .accept op arg :: s.rtrace }

/-- The accepting edge of a request that is run whole: the host goes on to its next request (log 6). -/
def State.start (op : BitVec 4) (arg : Byte) (s : State) : State := (s.accept op arg).offerNext

/-- `Respond(d, e)`: the response registers are written, `rsp_valid` pulses, `BUSY <- 0`, the position is IDLE (R26, R32). -/
def State.respond (d : Byte) (e : Bool) (s : State) : State :=
  { s with rspData := d, rspErr := e, rspPulse := true, pos := .idle, rtrace := .respond d e :: s.rtrace }

/-- `Respond(RSP_DATA, 0)`, of the ops without a result (R26, D18). -/
def State.respondKept (s : State) : State := s.respond s.rspData false

/-- An edge with no request running and none offered: nothing is emitted, the pulse `rsp_valid` is over (R26, R27). -/
def State.idleEdge (s : State) : State := { s with rspPulse := false }

/-- A rising edge with `rst = 1`: the reset state of R36; the running request is abandoned without a Respond (R230,
R231). A register that becomes unspecified takes a free value (log 2). The inputs are the environment's and stay. -/
def State.takeReset (s : State) : State :=
  { s with
    sda := .d1, scl := .d1, rspPulse := false, pos := .idle, dcnt := 0, rtrace := []
    rspData := Config.freeBits 8 s.freeIx
    rspErr := (Config.freeBits 1 (s.freeIx + 1)).getLsbD 0
    op := Config.freeBits 4 (s.freeIx + 2)
    arg := Config.freeBits 8 (s.freeIx + 3)
    shreg := Config.freeBits 8 (s.freeIx + 4)
    bitidx := Config.freeBits 3 (s.freeIx + 5)
    cmd := Config.freeBits 8 (s.freeIx + 6)
    val := Config.freeBits 8 (s.freeIx + 7)
    chk := Config.freeBits 8 (s.freeIx + 8)
    attempt := Config.freeBits 2 (s.freeIx + 9)
    ackbit := (Config.freeBits 1 (s.freeIx + 10)).getLsbD 0
    ok := (Config.freeBits 1 (s.freeIx + 11)).getLsbD 0
    freeIx := s.freeIx + 12 }

/-- A request with the given op code and argument byte, run whole from its accepting edge to its Respond (R25, R57), the
host's schedule standing still (log 6). A core that is not ready accepts nothing, and the offer has no effect (R25). `high` says that the op drives SDA high at one of its
events; a slave that holds SDA low then, or while the core drives it high already, is contention (R23; log 4). -/
def request (op : BitVec 4) (arg : Byte) (high : Bool) (body : State → State) (s : State) : Result :=
  if s.reqReady then
    if s.sdaHeld && (high || s.sda == .d1) then .fault .contention else .next (body (s.start op arg))
  else .next s

end Sys2Proof.Machine
end

