-- ==== Sys2Proof/Machine/BitTransfer.lean ====
section
/-! DEFINITION. Bit-level transfer: SEND_BYTE, READ_BYTE, CHECK_ACK, SEND_ACK, SEND_NAK (41_bit_transfer.md). -/

namespace Sys2Proof.Machine

/-- Bit positions in wire order, most significant first (R53). -/
def wireOrder : List (BitVec 3) := [7#3, 6#3, 5#3, 4#3, 3#3, 2#3, 1#3, 0#3]

/-- One bit of sendByte, phases a to g (R120, D10). -/
def sendBit (v : Byte) (i : BitVec 3) : List Act :=
  [.lowAfter [.setBitidx i], .wait Config.tPh, .driveBit v, .wait Config.tPh, .drive .scl true,
   .wait Config.tPh, .drive .scl false]

/-- `sendByte(v)`, 57 events: eight bits, then the release of SDA (R120). -/
def sendByte (v : Byte) : List Act := wireOrder.flatMap (sendBit v) ++ [.release .sda]

/-- One bit of readByte, phases a to f; bit 7 comes after the clearing of SHREG and releases SDA at a' (R124, D11). -/
def readBit (i : BitVec 3) : List Act :=
  (if i = 7#3 then [.lowAfter [.clearShreg, .setBitidx i], .release .sda] else [.lowAfter [.setBitidx i]]) ++
  [.wait Config.tPh, .drive .scl true, .wait Config.tPh, .sampleBit, .drive .scl false]

/-- `readByte()`, 49 events; the byte is left in SHREG (R124). -/
def readByte : List Act := wireOrder.flatMap readBit

/-- `checkAck()`, seven events; the level is left in ACKBIT (R128, D12). -/
def checkAck : List Act :=
  [.drive .scl false, .release .sda, .wait Config.tPh, .drive .scl true, .wait Config.tPh, .sampleAck,
   .drive .scl false]

/-- `sendACK()` after the given register writes, seven events (R130, D13). -/
def sendAckAfter (writes : List RegWrite) : List Act :=
  [.lowAfter writes, .wait Config.tPh, .drive .sda false, .wait Config.tPh, .drive .scl true, .wait Config.tPh,
   .drive .scl false]

/-- `sendACK()` (R130). -/
def sendAck : List Act := sendAckAfter []

/-- `sendNAK()` after the given register writes, six events, SCL left high (R132, R134, D14). -/
def sendNakAfter (writes : List RegWrite) : List Act :=
  [.lowAfter writes, .wait Config.tPh, .drive .sda true, .wait Config.tPh, .drive .scl true, .wait Config.tPh]

/-- `sendNAK()` (R132). -/
def sendNak : List Act := sendNakAfter []

/-- SEND_BYTE (R121). Sending 0x00 never drives SDA high. -/
def execSendByte (value : Byte) (s : State) : Result :=
  request 0x4#4 value (value != 0x00#8) (fun s => (runActs (sendByte s.arg) s).respondKept) s

/-- READ_BYTE (R125): the result is the byte readByte leaves in SHREG; `arg` is ignored. -/
def execReadByte (arg : Byte) (s : State) : Result :=
  request 0x5#4 arg false (fun s => let t := runActs readByte s; t.respond t.shreg false) s

/-- CHECK_ACK (R129): the result is the sampled bit, 0x00 = ACK, 0x01 = no ACK; `arg` is ignored. -/
def execCheckAck (arg : Byte) (s : State) : Result :=
  request 0x6#4 arg false (fun s => let t := runActs checkAck s; t.respond (zext8 t.ackbit) false) s

/-- SEND_ACK (R131); `arg` is ignored. -/
def execSendAck (arg : Byte) (s : State) : Result :=
  request 0x7#4 arg false (fun s => (runActs sendAck s).respondKept) s

/-- SEND_NAK (R133); `arg` is ignored. -/
def execSendNak (arg : Byte) (s : State) : Result :=
  request 0x8#4 arg true (fun s => (runActs sendNak s).respondKept) s

end Sys2Proof.Machine
end

