-- ==== Sys2Proof/Machine/Framing.lean ====
section
/-! DEFINITION. Timing and framing: DELAY, BUS_START, BUS_STOP (40_framing_timing.md). -/

namespace Sys2Proof.Machine

/-- `busDelay(n)` (R100). -/
def busDelay (n : Nat) : List Act := [.wait n]

/-- `busStart()`, five events (R101, D8). -/
def busStart : List Act :=
  [.drive .sda true, .drive .scl true, .wait Config.tSuSta, .drive .sda false, .wait Config.tHdSta]

/-- `busStop()`, seven events (R104, D9). -/
def busStop : List Act :=
  [.drive .scl false, .wait Config.tStop, .drive .sda false, .wait Config.tStop, .drive .scl true,
   .wait Config.tStop, .drive .sda true]

/-- DELAY (R100). -/
def execDelay (units : Byte) (s : State) : Result :=
  request 0x1#4 units false (fun s => (runActs (busDelay (delayUnits s.arg)) s).respondKept) s

/-- BUS_START (R102): from any drive state; `arg` is ignored. -/
def execBusStart (arg : Byte) (s : State) : Result :=
  request 0x2#4 arg true (fun s => (runActs busStart s).respondKept) s

/-- BUS_STOP (R105): from any drive state; `arg` is ignored. -/
def execBusStop (arg : Byte) (s : State) : Result :=
  request 0x3#4 arg true (fun s => (runActs busStop s).respondKept) s

end Sys2Proof.Machine
end

