-- ==== Sys2Proof/Machine/Engine.lean ====
section
/-! DEFINITION. The command/response engine: READ_A_BYTE (42_command_engine.md). -/

namespace Sys2Proof.Machine

/-- Entry: the command is latched, VAL takes the sentinel, ATTEMPT and OK are cleared (R150). -/
def enterEngine (s : State) : State := { s with cmd := s.arg, val := Config.sentinel, attempt := 0#2, ok := false }

/-- `ATTEMPT <- ATTEMPT + 1`, at the start of every attempt (R151, D16). -/
def countAttempt (s : State) : State := { s with attempt := s.attempt + 1#2 }

/-- `OK <- 0`, after an attempt that was not acknowledged (R151). -/
def clearOk (s : State) : State := { s with ok := false }

/-- The checksum check: OK, or VAL marked invalid (R153). -/
def validate (s : State) : State :=
  let pass := checksumMatches s.val s.cmd s.chk
  { s with val := if pass then s.val else Config.sentinel, ok := pass }

/-- The command phase of an attempt without its acknowledge check: `busStart(); sendByte(CMD)` (R151). -/
def commandPhase (cmd : Byte) : List Act := busStart ++ sendByte cmd

/-- The response phase of an acknowledged attempt, to its busStop (R152). -/
def responsePhase : List Act :=
  readByte ++ sendAckAfter [.latchVal] ++ readByte ++ sendNakAfter [.latchChk] ++ busStop

/-- One attempt (R151 to R153). -/
def attempt (s : State) : State :=
  let t := runActs checkAck (runActs (commandPhase s.cmd) (countAttempt s))
  if t.ackbit then clearOk (runActs busStop t) else validate (runActs responsePhase t)

/-- The attempts of one call: `repeat … until OK = 1 or ATTEMPT = 3`, at most `n` more of them (R154, R155). -/
def attempts : Nat → State → State
  | 0, s => s
  | n + 1, s =>
    let t := attempt s
    if attemptsOver t.ok t.attempt then t else attempts n t

/-- The whole transaction with the command byte in ARG: entry, attempts, `Respond(VAL, 0)` (R155). -/
def readRegister (s : State) : State :=
  let t := attempts Config.nAttempts (enterEngine s)
  t.respond t.val false

/-- READ_A_BYTE (R155). Its first event drives SDA high (R101). -/
def execReadAByte (cmd : Byte) (s : State) : Result := request 0x9#4 cmd true readRegister s

end Sys2Proof.Machine
end

