-- ==== Sys2Proof/Machine/Commands.lean ====
section
/-! DEFINITION. The command bytes of the bus (30_encoding.md R80). A command byte is no host op: the core executes it as
the command byte of a READ_A_BYTE, the only op that addresses the command space (20_memory.md R50, 42_command_engine.md
R155). DESIGN CHOICE (log 8). What the command does in the slave is the environment's: each reply is a draw (R58). The byte is
the value the machine is built with (R9; log 9). -/

namespace Sys2Proof.Machine

/-- The transaction that has the core send the command byte `c`: the request `READ_A_BYTE c` (R50, R155). -/
def commandRequest (c : Byte) (s : State) : Result := request 0x9#4 c true readRegister s

/-- The command byte CMD_TYPE_LB (R80). -/
def execCmdTypeLb (s : State) : Result := commandRequest s.codes.cmdTypeLb s

/-- The command byte CMD_TYPE_HB (R80). -/
def execCmdTypeHb (s : State) : Result := commandRequest s.codes.cmdTypeHb s

/-- The command byte CMD_PARAMS (R80). -/
def execCmdParams (s : State) : Result := commandRequest s.codes.cmdParams s

/-- The command byte CMD_STATUS (R80). -/
def execCmdStatus (s : State) : Result := commandRequest s.codes.cmdStatus s

/-- The command byte CMD_HUM_LB (R80). -/
def execCmdHumLb (s : State) : Result := commandRequest s.codes.cmdHumLb s

/-- The command byte CMD_HUM_HB (R80). -/
def execCmdHumHb (s : State) : Result := commandRequest s.codes.cmdHumHb s

/-- The command byte CMD_TEMP_LB (R80). -/
def execCmdTempLb (s : State) : Result := commandRequest s.codes.cmdTempLb s

/-- The command byte CMD_TEMP_HB (R80). -/
def execCmdTempHb (s : State) : Result := commandRequest s.codes.cmdTempHb s

/-- The command byte CMD_PRES_LB (R80). -/
def execCmdPresLb (s : State) : Result := commandRequest s.codes.cmdPresLb s

/-- The command byte CMD_PRES_HB (R80). -/
def execCmdPresHb (s : State) : Result := commandRequest s.codes.cmdPresHb s

/-- The command byte CMD_CO2_LB (R80). -/
def execCmdCo2Lb (s : State) : Result := commandRequest s.codes.cmdCo2Lb s

/-- The command byte CMD_CO2_HB (R80). -/
def execCmdCo2Hb (s : State) : Result := commandRequest s.codes.cmdCo2Hb s

end Sys2Proof.Machine
end

