-- ==== Sys2Proof/Machine/Reserved.lean ====
section
/-! DEFINITION. The reserved op codes (30_encoding.md R73): accepted, no event, `Respond(RSP_DATA, 1)`. The spec lets a
model refuse them (U8); this one runs R73 (log 10). -/

namespace Sys2Proof.Machine

/-- A request with a reserved op code (R73). -/
def reservedRequest (op : BitVec 4) (arg : Byte) (s : State) : Result :=
  request op arg false (fun s => s.respond s.rspData true) s

/-- The reserved op code 0x0 (R73). -/
def execReserved0 (arg : Byte) (s : State) : Result := reservedRequest 0x0#4 arg s

/-- The reserved op code 0xA (R73). -/
def execReservedA (arg : Byte) (s : State) : Result := reservedRequest 0xA#4 arg s

/-- The reserved op code 0xB (R73). -/
def execReservedB (arg : Byte) (s : State) : Result := reservedRequest 0xB#4 arg s

/-- The reserved op code 0xC (R73). -/
def execReservedC (arg : Byte) (s : State) : Result := reservedRequest 0xC#4 arg s

/-- The reserved op code 0xD (R73). -/
def execReservedD (arg : Byte) (s : State) : Result := reservedRequest 0xD#4 arg s

/-- The reserved op code 0xE (R73). -/
def execReservedE (arg : Byte) (s : State) : Result := reservedRequest 0xE#4 arg s

/-- The reserved op code 0xF (R73). -/
def execReservedF (arg : Byte) (s : State) : Result := reservedRequest 0xF#4 arg s

end Sys2Proof.Machine
end

