-- ==== Sys2Proof/Machine/Dispatch.lean ====
section
/-! DEFINITION. The dispatch: one arm per instruction. -/

namespace Sys2Proof.Machine

def exec (i : Instr) (s : State) : Host.Outcome State Fault Refusal :=
  match i with
  | .delay units => Sys2Proof.Machine.execDelay units s
  | .busStart arg => Sys2Proof.Machine.execBusStart arg s
  | .busStop arg => Sys2Proof.Machine.execBusStop arg s
  | .sendByte value => Sys2Proof.Machine.execSendByte value s
  | .readByte arg => Sys2Proof.Machine.execReadByte arg s
  | .checkAck arg => Sys2Proof.Machine.execCheckAck arg s
  | .sendAck arg => Sys2Proof.Machine.execSendAck arg s
  | .sendNak arg => Sys2Proof.Machine.execSendNak arg s
  | .readAByte cmd => Sys2Proof.Machine.execReadAByte cmd s
  | .reserved0 arg => Sys2Proof.Machine.execReserved0 arg s
  | .reservedA arg => Sys2Proof.Machine.execReservedA arg s
  | .reservedB arg => Sys2Proof.Machine.execReservedB arg s
  | .reservedC arg => Sys2Proof.Machine.execReservedC arg s
  | .reservedD arg => Sys2Proof.Machine.execReservedD arg s
  | .reservedE arg => Sys2Proof.Machine.execReservedE arg s
  | .reservedF arg => Sys2Proof.Machine.execReservedF arg s
  | .cmdTypeLb => Sys2Proof.Machine.execCmdTypeLb s
  | .cmdTypeHb => Sys2Proof.Machine.execCmdTypeHb s
  | .cmdParams => Sys2Proof.Machine.execCmdParams s
  | .cmdStatus => Sys2Proof.Machine.execCmdStatus s
  | .cmdHumLb => Sys2Proof.Machine.execCmdHumLb s
  | .cmdHumHb => Sys2Proof.Machine.execCmdHumHb s
  | .cmdTempLb => Sys2Proof.Machine.execCmdTempLb s
  | .cmdTempHb => Sys2Proof.Machine.execCmdTempHb s
  | .cmdPresLb => Sys2Proof.Machine.execCmdPresLb s
  | .cmdPresHb => Sys2Proof.Machine.execCmdPresHb s
  | .cmdCo2Lb => Sys2Proof.Machine.execCmdCo2Lb s
  | .cmdCo2Hb => Sys2Proof.Machine.execCmdCo2Hb s

end Sys2Proof.Machine
end

