-- ==== Sys2Proof/Machine/Fetch.lean ====
section
/-! DEFINITION. The request on the host port (30_encoding.md R70, 10_state.md R24, R25): there is no instruction fetch
(20_memory.md R66), the port is where the next request is read. -/

namespace Sys2Proof.Machine

/-- The request word on the host port: `req_op` and `req_arg` (R70). -/
def State.portWord (s : State) : RequestWord := requestWord s.reqOp s.reqArg

/-- Whether a step runs a whole request: one is offered, the core is ready, the observer does not ask for single edges, and
the host's schedule, in which an `rst` could stand, is empty (R25, R57; log 6). -/
def State.runsRequest (s : State) : Bool := !s.edgewise && s.schedule.isEmpty && s.reqReady && s.reqValid

/-- The request word that puts an encoding of the opcode table to the core: a host request is itself, a command byte is
offered as the argument of READ_A_BYTE, op code 0x9 (R50, R155; log 8). -/
def Encoding.offerWord : Encoding → RequestWord
  | .word w => w
  | .byte b => requestWord 0x9#4 b

/-- The state in which the very next step accepts and runs the request word `w`: `rst` is low and not to be raised, no request is
running, the host offers `w`, and a step shows a whole request. -/
def State.readyFor (w : RequestWord) (s : State) : State :=
  { s.offer w with rst := false, schedule := [], pos := .idle, dcnt := 0, edgewise := false }

/-- The state with the instruction of the given table bits placed as the next one, in the encoding it has with the command
codes the machine is built with (logs 5, 9, 14); bits that are no row's leave the state as it is. -/
def placeTableWord (s : State) (nbits w : Nat) : State :=
  match decodeTableWord nbits w with
  | some i => s.readyFor (Encoding.offerWord (encode s.codes i))
  | none => s

end Sys2Proof.Machine
end

