-- ==== Sys2Proof/Machine/Sequencer.lean ====
section
/-! DEFINITION. The sequencer edge by edge (10_state.md R32, R35; 42_command_engine.md R156): one event, one decision of the
engine or one cycle of a wait at a time, with `rst` looked at before each (70_reset_and_hazards.md R230, R231). -/

namespace Sys2Proof.Machine

/-- The event list of a request's op (R100, R102, R105, R121, R125, R129, R131, R133); a reserved op has none (R73),
READ_A_BYTE's are its engine states'. -/
def opActs (s : State) : List Act :=
  match decodeOp s.op with
  | .delay => busDelay (delayUnits s.arg)
  | .busStart => busStart
  | .busStop => busStop
  | .sendByte => sendByte s.arg
  | .readByte => readByte
  | .checkAck => checkAck
  | .sendAck => sendAck
  | .sendNak => sendNak
  | .readAByte => []
  | .reserved => []

/-- The event list a phase runs through, which the step indexes (R32): the column "work done" of R156. -/
def phaseActs (ph : Phase) (s : State) : List Act :=
  match ph with
  | .op => opActs s
  | .attempt => []
  | .sendCmd => commandPhase s.cmd
  | .checkAck => checkAck
  | .readValue => responsePhase
  | .ackFailed => busStop
  | .validate => []
  | .accept => []
  | .retry => []

/-- The position moves to a step of a phase (R32). -/
def State.atStep (ph : Phase) (k : Nat) (s : State) : State := { s with pos := .run ph k }

/-- The end of a request's own list: its Respond, or the engine's entry (R73, R100 to R133, R150). -/
def finishOp (s : State) : State :=
  match decodeOp s.op with
  | .delay => s.respondKept
  | .busStart => s.respondKept
  | .busStop => s.respondKept
  | .sendByte => s.respondKept
  | .readByte => s.respond s.shreg false
  | .checkAck => s.respond (zext8 s.ackbit) false
  | .sendAck => s.respondKept
  | .sendNak => s.respondKept
  | .readAByte => (enterEngine s).atStep .attempt 0
  | .reserved => s.respond s.rspData true

/-- The end of a phase's list: the column "next state" of R156, with the register writes of R151, R153, R154. -/
def finishPhase (ph : Phase) (s : State) : State :=
  match ph with
  | .op => finishOp s
  | .attempt => (countAttempt s).atStep .sendCmd 0
  | .sendCmd => s.atStep .checkAck 0
  | .checkAck => if s.ackbit then s.atStep .ackFailed 0 else s.atStep .readValue 0
  | .readValue => s.atStep .validate 0
  | .ackFailed => (clearOk s).atStep .retry 0
  | .validate => let t := validate s; if t.ok then t.atStep .accept 0 else t.atStep .retry 0
  | .accept => s.respond s.val false
  | .retry => if s.attempt.toNat < Config.nAttempts then s.atStep .attempt 0 else s.respond s.val false

/-- A Wait begins: the event is emitted and DCNT is loaded with `n × DELAY_FACTOR`; a wait of no cycles is over at once
(R35). -/
def startWait (ph : Phase) (k n : Nat) (s : State) : State :=
  let cycles := n * Config.delayFactor
  { s with
    rtrace := .wait n :: s.rtrace
    dcnt := cycles
    pos := if cycles = 0 then .run ph (k + 1) else .run ph k }

/-- The event at step `k` of a list: it advances the step by one, a Wait only after its cycles (R32). -/
def runStep (ph : Phase) (k : Nat) (a : Act) (s : State) : State :=
  match a with
  | .wait n => startWait ph k n s
  | .drive _ _ => (a.run s).atStep ph (k + 1)
  | .driveBit _ => (a.run s).atStep ph (k + 1)
  | .release _ => (a.run s).atStep ph (k + 1)
  | .sampleBit => (a.run s).atStep ph (k + 1)
  | .sampleAck => (a.run s).atStep ph (k + 1)
  | .lowAfter _ => (a.run s).atStep ph (k + 1)

/-- One edge of a running request at step `k` of a phase: a cycle of the wait that DCNT counts, the next event, or the
end of the list (R32, R35). -/
def runEdge (ph : Phase) (k : Nat) (s : State) : State :=
  match s.dcnt with
  | d + 2 => { s with dcnt := d + 1 }
  | 1 => { s with dcnt := 0 }.atStep ph (k + 1)
  | 0 =>
    match (phaseActs ph s)[k]? with
    | some a => runStep ph k a s
    | none => finishPhase ph s

/-- One edge as the core makes it from its inputs: reset before everything else (R203), then contention (R23), then the
running request, then the accepting edge of an offered one (R25), or an idle edge. -/
def coreEdge (s : State) : Result :=
  if s.rst then .next s.takeReset
  else if s.contends then .fault .contention
  else
    match s.pos with
    | .run ph k => .next (runEdge ph k s)
    | .idle => if s.reqValid then .next (s.accept s.reqOp s.reqArg) else .next s.idleEdge

/-- One clock edge: the core's, and with it the host's move, its inputs for the next cycle (R24, R214). -/
def tick (s : State) : Result :=
  match coreEdge s with
  | .next t => .next t.hostMove
  | .fault f => .fault f
  | .refused r => .refused r

/-- `n` edges, stopping at a fault. -/
def ticks : Nat → State → Result
  | 0, s => .next s
  | n + 1, s =>
    match tick s with
    | .next t => ticks n t
    | .fault f => .fault f
    | .refused r => .refused r

end Sys2Proof.Machine
end

