-- ==== Sys2Proof/Machine/Step.lean ====
section
/-! DEFINITION. One step: a whole request where one can start (20_memory.md R57), else one edge (log 6). -/

namespace Sys2Proof.Machine

/-- A state with the instruction of the opcode table's bits `w` placed so that the next step runs it. -/
def State.withFetchWord (s : State) (nbits w : Nat) : State := placeTableWord s nbits w

/-- One step: the request on the port, decoded and run whole; otherwise one edge of the core: an `rst` edge, an edge of
a running request, an idle edge. -/
def step (s : State) : Host.Outcome State Fault Refusal :=
  if s.runsRequest then exec (decodeRequest s.portWord) s else tick s

end Sys2Proof.Machine
end

