-- ==== Sys2Proof/Machine/Accessors.lean ====
section
/-! DEFINITION. The host as a client of the core (43_host_accessors.md, 30_encoding.md R82). OUTSIDE THE CORE (00_scope.md
R6): no meaning of an instruction depends on this file. Physical values are exact rationals (R192; log 16). -/

namespace Sys2Proof.Machine

/-- A host procedure: it answers a value and the state it leaves, or nothing if a request of it does not complete. -/
abbrev HostRun (α : Type) := State → Option (α × State)

/-- The procedure that issues no request. -/
def hostReturn {α : Type} (a : α) : HostRun α := fun s => some (a, s)

/-- One procedure, then the next with its value: the host waits for each response (R180). -/
def hostThen {α β : Type} (m : HostRun α) (f : α → HostRun β) : HostRun β := fun s =>
  match m s with
  | none => none
  | some (a, t) => f a t

/-- Issue one request and take `rsp_data` at its `rsp_valid` (R180). -/
def issue (w : RequestWord) : HostRun Byte := fun s =>
  match exec (decodeRequest w) (s.offer w) with
  | .next t => if t.rspValid then some (t.rspData, t) else none
  | .fault _ => none
  | .refused _ => none

/-- Issue one assembler line (R81). -/
def issueLine (l : AsmLine) : HostRun Byte := fun s =>
  match assemble s.codes l with
  | some w => issue w s
  | none => none

/-- `rab(c)`: issue `READ_A_BYTE c` and take `rsp_data` (R180). -/
def rab (c : Byte) : HostRun Byte := issue (requestWord 0x9#4 c)

/-- `rab` of a command named by its parameter, with the value the machine is built with (R80, R180). -/
def rabNamed (command : CommandCodes → Byte) : HostRun Byte := fun s => rab (command s.codes) s

/-- `raw = HB × 256 + LB` (R181). -/
def rawValue (lb hb : Byte) : Nat := hb.toNat * 256 + lb.toNat

/-- The status-checked 16-bit read; `none` is the accessor's sentinel (R182). -/
def read16 (cLb cHb : CommandCodes → Byte) : HostRun (Option Nat) :=
  hostThen (rabNamed cLb) fun lb =>
  hostThen (rabNamed CommandCodes.cmdStatus) fun status =>
  if status != 0x00#8 then hostReturn none
  else
    hostThen (rabNamed cHb) fun hb =>
    hostThen (rabNamed CommandCodes.cmdStatus) fun status =>
    if status != 0x00#8 then hostReturn none else hostReturn (some (rawValue lb hb))

/-- readSensortype: low byte first, no status check (R184). -/
def readSensortype : HostRun Nat :=
  hostThen (rabNamed CommandCodes.cmdTypeLb) fun lb =>
  hostThen (rabNamed CommandCodes.cmdTypeHb) fun hb => hostReturn (rawValue lb hb)

/-- readSensorparameters: 0xFF reads as "no parameters supported", 0x00 (R185). -/
def readSensorparameters : HostRun Byte :=
  hostThen (rabNamed CommandCodes.cmdParams) fun p => hostReturn (if p = 0xFF#8 then 0x00#8 else p)

/-- readStatusbyte (R186). -/
def readStatusbyte : HostRun Byte := rabNamed CommandCodes.cmdStatus

/-- The physical value of a raw value, the accessor's sentinel where there is none. -/
def physical (sentinel : ℚ) (scale : Nat → ℚ) (raw : Option Nat) : ℚ :=
  match raw with
  | none => sentinel
  | some n => scale n

/-- readCO2average: the raw count (R187). -/
def readCO2average : HostRun ℚ :=
  hostThen (read16 CommandCodes.cmdCo2Lb CommandCodes.cmdCo2Hb) fun r => hostReturn (physical (-1) (fun n => n) r)

/-- readHumidity: `raw / 100` (R188). -/
def readHumidity : HostRun ℚ :=
  hostThen (read16 CommandCodes.cmdHumLb CommandCodes.cmdHumHb) fun r => hostReturn (physical (-1) (fun n => n / 100) r)

/-- readTemperature: `raw / 100 − 273.15` (R189, R194). -/
def readTemperature : HostRun ℚ :=
  hostThen (read16 CommandCodes.cmdTempLb CommandCodes.cmdTempHb) fun r =>
  hostReturn (physical (-300) (fun n => n / 100 - 27315 / 100) r)

/-- readPressure: `raw / 10` (R190). -/
def readPressure : HostRun ℚ :=
  hostThen (read16 CommandCodes.cmdPresLb CommandCodes.cmdPresHb) fun r => hostReturn (physical (-1) (fun n => n / 10) r)

/-- The pseudo-instruction `ATTEMPT cmd` run by the host: the eight requests of R82, the four marked ones left out after
a CHECK_ACK result other than 0x00. The answer is the value and checksum bytes, or `none` without an acknowledge. -/
def attemptByHand (cmd : AsmOperand) : HostRun (Option (Byte × Byte)) :=
  hostThen (issueLine (.op .busStart [])) fun _ =>
  hostThen (issueLine (.op .sendByte [cmd])) fun _ =>
  hostThen (issueLine (.op .checkAck [])) fun ack =>
  if ack != 0x00#8 then
    hostThen (issueLine (.op .busStop [])) fun _ => hostReturn none
  else
    hostThen (issueLine (.op .readByte [])) fun value =>
    hostThen (issueLine (.op .sendAck [])) fun _ =>
    hostThen (issueLine (.op .readByte [])) fun checksum =>
    hostThen (issueLine (.op .sendNak [])) fun _ =>
    hostThen (issueLine (.op .busStop [])) fun _ => hostReturn (some (value, checksum))

end Sys2Proof.Machine
end

