-- ==== Sys2Proof/Machine/Trace.lean ====
section
/-! DEFINITION. Observations computed from an event trace: the wire observation (10_state.md R29), clock rises
(41_bit_transfer.md R146), wait content (70_reset_and_hazards.md R240), start and stop conditions (30_encoding.md R76). -/

namespace Sys2Proof.Machine

/-- The drive states of the two lines, SDA first. -/
abbrev Pads := Drive × Drive

/-- The drive states of a state. -/
def State.pads (s : State) : Pads := (s.sda, s.scl)

/-- The drive states after an event (R21). -/
def padsAfter : Pads → Event → Pads
  | (_, c), .drive .sda b => (Drive.ofLevel b, c)
  | (d, _), .drive .scl b => (d, Drive.ofLevel b)
  | (_, c), .release .sda => (.rel, c)
  | (d, _), .release .scl => (d, .rel)
  | p, .accept _ _ => p
  | p, .wait _ => p
  | p, .sample _ _ => p
  | p, .respond _ _ => p

/-- The level of a line with a drive state, given the level it has when released (R23). -/
def driveLevel (d : Drive) (released : Level) : Level :=
  match d with
  | .rel => released
  | .d0 => false
  | .d1 => true

/-- A released SDA's level after an event: the level sampled, else the given one (R23, R29). -/
def releasedLevel (e : Event) (given : Level) : Level :=
  match e with
  | .sample _ b => b
  | .accept _ _ => given
  | .drive _ _ => given
  | .release _ => given
  | .wait _ => given
  | .respond _ _ => given

/-- The pair (lvl(SDA), lvl(SCL)) of given drive states, a released SDA at the given level (R23). -/
def levelPair (p : Pads) (released : Level) : Level × Level := (driveLevel p.1 released, p.2 == .d1)

/-- The pair (lvl(SDA), lvl(SCL)) after each event. `rel` lists a released SDA's level after each event; past its end
the pull-up gives 1 (R16, R29; log 17). -/
def levelPairs : Pads → List Level → List Event → List (Level × Level)
  | _, _, [] => []
  | p, rel, e :: es =>
    let q := padsAfter p e
    levelPair q (releasedLevel e (rel.head?.getD true)) :: levelPairs q rel.tail es

/-- A list with runs of equal entries merged, after an entry `x` that stands before it. -/
def mergeFrom {α : Type} [DecidableEq α] (x : α) : List α → List α
  | [] => []
  | y :: ys => if y = x then mergeFrom x ys else y :: mergeFrom y ys

/-- A list with runs of equal entries merged. -/
def mergeRuns {α : Type} [DecidableEq α] : List α → List α
  | [] => []
  | x :: xs => x :: mergeFrom x xs

/-- The wire observation of a trace from given drive states: the level pairs after each event, with runs of equal pairs
merged (R29). -/
def wire (p : Pads) (rel : List Level) (es : List Event) : List (Level × Level) := mergeRuns (levelPairs p rel es)

/-- The wire observation with the pair before the first event in front, as 95_test_vectors.md writes a request's wire from
its start state; `start` is the level of a released SDA before the first event (R29). -/
def wireFrom (p : Pads) (start : Level) (rel : List Level) (es : List Event) : List (Level × Level) :=
  mergeRuns (levelPair p start :: levelPairs p rel es)

/-- The start conditions on a wire: SDA falling while SCL is 1 (R76). -/
def startCount : List (Level × Level) → Nat
  | (true, true) :: (false, true) :: ws => startCount ((false, true) :: ws) + 1
  | _ :: ws => startCount ws
  | [] => 0

/-- The stop conditions on a wire: SDA rising while SCL is 1 (R76). -/
def stopCount : List (Level × Level) → Nat
  | (false, true) :: (true, true) :: ws => stopCount ((true, true) :: ws) + 1
  | _ :: ws => stopCount ws
  | [] => 0

/-- The SCL rises of a trace: `Drive(SCL, 1)` made while `drv(SCL) = D0` (R146). -/
def sclRises : Pads → List Event → Nat
  | _, [] => 0
  | p, e :: es => (if e = .drive .scl true ∧ p.2 = .d0 then 1 else 0) + sclRises (padsAfter p e) es

/-- SDA's driven level at each SCL rise, a released SDA read as 1: what a slave that records the bus sees (R126). -/
def sdaAtRises : Pads → List Event → List Level
  | _, [] => []
  | p, e :: es =>
    if e = .drive .scl true ∧ p.2 = .d0 then driveLevel p.1 true :: sdaAtRises (padsAfter p e) es
    else sdaAtRises (padsAfter p e) es

/-- Every Sample of the trace is made with SDA released and SCL at 1 (R147). -/
def samplesReleased : Pads → List Event → Bool
  | _, [] => true
  | p, e :: es =>
    (match e with
      | .sample l _ => l == .sda && p.1 == .rel && p.2 == .d1
      | .accept _ _ => true
      | .drive _ _ => true
      | .release _ => true
      | .wait _ => true
      | .respond _ _ => true) && samplesReleased (padsAfter p e) es

/-- How many events of the trace change `drv(SDA)` while `lvl(SCL)` is 1 (R145). -/
def sdaChangesWhileHigh : Pads → List Event → Nat
  | _, [] => 0
  | p, e :: es =>
    (if (padsAfter p e).1 ≠ p.1 ∧ p.2 = .d1 then 1 else 0) + sdaChangesWhileHigh (padsAfter p e) es

/-- The wait content of a trace, in delay units (R240). -/
def waitUnits : List Event → Nat
  | [] => 0
  | .wait n :: es => n + waitUnits es
  | .accept _ _ :: es => waitUnits es
  | .drive _ _ :: es => waitUnits es
  | .release _ :: es => waitUnits es
  | .sample _ _ :: es => waitUnits es
  | .respond _ _ :: es => waitUnits es

/-- The `clk` cycles a trace waits: its wait content times `DELAY_FACTOR` (R10). -/
def waitCycles (es : List Event) : Nat := waitUnits es * Config.delayFactor

/-- Whether an event is one of the core's own moves on the bus: not an Accept, not a Respond (R28). -/
def Event.onBus : Event → Bool
  | .accept _ _ => false
  | .drive _ _ => true
  | .release _ => true
  | .wait _ => true
  | .sample _ _ => true
  | .respond _ _ => false

/-- Whether an event is a Sample. -/
def Event.isSample : Event → Bool
  | .accept _ _ => false
  | .drive _ _ => false
  | .release _ => false
  | .wait _ => false
  | .sample _ _ => true
  | .respond _ _ => false

/-- Whether an event is a Wait. -/
def Event.isWait : Event → Bool
  | .accept _ _ => false
  | .drive _ _ => false
  | .release _ => false
  | .wait _ => true
  | .sample _ _ => false
  | .respond _ _ => false

/-- Whether an event is an Accept. -/
def Event.isAccept : Event → Bool
  | .accept _ _ => true
  | .drive _ _ => false
  | .release _ => false
  | .wait _ => false
  | .sample _ _ => false
  | .respond _ _ => false

/-- Reading a trace from its oldest event, `b` saying whether a request is running: an Accept comes only while none is,
every other event only while one is, and a Respond ends it (R27, R28, R62). The answer is whether one is running at the
end, or nothing if the trace breaks this. -/
def traceBusy : Bool → List Event → Option Bool
  | b, [] => some b
  | b, .accept _ _ :: es => if b then none else traceBusy true es
  | b, .respond _ _ :: es => if b then traceBusy false es else none
  | b, .drive _ _ :: es => if b then traceBusy b es else none
  | b, .release _ :: es => if b then traceBusy b es else none
  | b, .wait _ :: es => if b then traceBusy b es else none
  | b, .sample _ _ :: es => if b then traceBusy b es else none

end Sys2Proof.Machine
end

