-- ==== Sys2Proof/Safety.lean ====
section
/-! DEFINITION. The terms claims use: the event lists and results written out from the spec, apart from the machine, and
the invariants. -/

namespace Sys2Proof.Machine

/-! ## The event lists of the spec -/

/-- The events of busStart (R101). -/
def busStartEvents : List Event :=
  [.drive .sda true, .drive .scl true, .wait Config.tSuSta, .drive .sda false, .wait Config.tHdSta]

/-- The events of busStop (R104). -/
def busStopEvents : List Event :=
  [.drive .scl false, .wait Config.tStop, .drive .sda false, .wait Config.tStop, .drive .scl true,
   .wait Config.tStop, .drive .sda true]

/-- The seven events of one bit of sendByte with the data level `b`, phases a to g (R120). -/
def sendBitEvents (b : Level) : List Event :=
  [.drive .scl false, .wait Config.tPh, .drive .sda b, .wait Config.tPh, .drive .scl true, .wait Config.tPh,
   .drive .scl false]

/-- The 57 events of `sendByte(v)`, most significant bit first (R120). -/
def sendByteEvents (v : Byte) : List Event :=
  [7, 6, 5, 4, 3, 2, 1, 0].flatMap (fun i => sendBitEvents (v.getLsbD i)) ++ [.release .sda]

/-- The six events of one bit of readByte in which the level `b` is sampled, phases a to f without a' (R124). -/
def readBitEvents (b : Level) : List Event :=
  [.drive .scl false, .wait Config.tPh, .drive .scl true, .wait Config.tPh, .sample .sda b, .drive .scl false]

/-- The events of a bit that begins with the release of SDA, event a': bit 7 of readByte, and checkAck (R124, R128). -/
def releasedBitEvents (b : Level) : List Event :=
  [.drive .scl false, .release .sda, .wait Config.tPh, .drive .scl true, .wait Config.tPh, .sample .sda b,
   .drive .scl false]

/-- The 49 events of readByte; its samples are those numbered from `k` (R124). -/
def readByteEvents (f : Nat → Level) (k : Nat) : List Event :=
  releasedBitEvents (f k) ++ [1, 2, 3, 4, 5, 6, 7].flatMap (fun j => readBitEvents (f (k + j)))

/-- The seven events of sendACK (R130). -/
def sendAckEvents : List Event := sendBitEvents false

/-- The six events of sendNAK (R132). -/
def sendNakEvents : List Event :=
  [.drive .scl false, .wait Config.tPh, .drive .sda true, .wait Config.tPh, .drive .scl true, .wait Config.tPh]

/-! ## Bytes, attempts and results in terms of the samples -/

/-- The byte `b7·2^7 + … + b0·2^0` whose bit 7 is sample number `k` and bit 0 sample number `k + 7` (R124). -/
def byteAt (f : Nat → Level) (k : Nat) : Byte :=
  BitVec.ofNat 8
    (128 * (f k).toNat + 64 * (f (k + 1)).toNat + 32 * (f (k + 2)).toNat + 16 * (f (k + 3)).toNat +
     8 * (f (k + 4)).toNat + 4 * (f (k + 5)).toNat + 2 * (f (k + 6)).toNat + (f (k + 7)).toNat)

/-- How many samples an attempt takes whose first sample is number `k`: 1 if it is not acknowledged, else 17 (R159). -/
def samplesTaken (f : Nat → Level) (k : Nat) : Nat := if f k then 1 else 17

/-- The number of the first sample of the attempt with index `j`, counted from 0 (R154). -/
def attemptStart (f : Nat → Level) : Nat → Nat
  | 0 => 0
  | j + 1 => attemptStart f j + samplesTaken f (attemptStart f j)

/-- The value byte an acknowledged attempt reads (R152). -/
def attemptValue (f : Nat → Level) (j : Nat) : Byte := byteAt f (attemptStart f j + 1)

/-- The checksum byte an acknowledged attempt reads (R152). -/
def attemptChecksum (f : Nat → Level) (j : Nat) : Byte := byteAt f (attemptStart f j + 9)

/-- The attempt with index `j` is acknowledged (R151). -/
def attemptAcked (f : Nat → Level) (j : Nat) : Bool := !f (attemptStart f j)

/-- The attempt with index `j` is acknowledged and passes its checksum for the command `c` (R151, R153). -/
def attemptPasses (c : Byte) (f : Nat → Level) (j : Nat) : Bool :=
  attemptAcked f j && (attemptValue f j + c == attemptChecksum f j)

/-- The number of attempts of one READ_A_BYTE: `min(k, 3)`, `k` the number of the first that passes (R157). -/
def attemptCount (c : Byte) (f : Nat → Level) : Nat :=
  if attemptPasses c f 0 then 1 else if attemptPasses c f 1 then 2 else 3

/-- The result of READ_A_BYTE: the value byte of the accepted attempt, else 0xFF (R158). -/
def transactionResult (c : Byte) (f : Nat → Level) : Byte :=
  if attemptPasses c f 0 then attemptValue f 0
  else if attemptPasses c f 1 then attemptValue f 1
  else if attemptPasses c f 2 then attemptValue f 2
  else 0xFF#8

/-- The events of the attempt with index `j` (R151, R152, R159): 187 if it is acknowledged, 76 if not. -/
def attemptEvents (c : Byte) (f : Nat → Level) (j : Nat) : List Event :=
  let k := attemptStart f j
  busStartEvents ++ sendByteEvents c ++ releasedBitEvents (f k) ++
  (if f k then [] else readByteEvents f (k + 1) ++ sendAckEvents ++ readByteEvents f (k + 9) ++ sendNakEvents) ++
  busStopEvents

/-- The bus events of a whole READ_A_BYTE: those of its attempts (R155). -/
def transactionEvents (c : Byte) (f : Nat → Level) : List Event :=
  (List.range (attemptCount c f)).flatMap (attemptEvents c f)

/-! ## When a request runs -/

/-- Whether an instruction drives SDA high at one of its events: busStart, busStop and sendNAK do (R101, R104, R132),
sendByte for a byte with a 1 in it (R120), and READ_A_BYTE through its busStart. -/
def drivesSdaHigh : Instr → Bool
  | .delay _ => false
  | .busStart _ => true
  | .busStop _ => true
  | .sendByte v => v != 0x00#8
  | .readByte _ => false
  | .checkAck _ => false
  | .sendAck _ => false
  | .sendNak _ => true
  | .readAByte _ => true
  | .reserved0 _ => false
  | .reservedA _ => false
  | .reservedB _ => false
  | .reservedC _ => false
  | .reservedD _ => false
  | .reservedE _ => false
  | .reservedF _ => false
  | .cmdTypeLb => true
  | .cmdTypeHb => true
  | .cmdParams => true
  | .cmdStatus => true
  | .cmdHumLb => true
  | .cmdHumHb => true
  | .cmdTempLb => true
  | .cmdTempHb => true
  | .cmdPresLb => true
  | .cmdPresHb => true
  | .cmdCo2Lb => true
  | .cmdCo2Hb => true

/-- The core is ready (R25) and the request meets no contention: the slave does not hold SDA low, or the core neither
drives it high already nor drives it high in this request (R23; the form is log 4's). -/
def Accepted (i : Instr) (s : State) : Prop :=
  s.reqReady = true ∧ (s.sdaHeld = true → s.sda ≠ .d1 ∧ drivesSdaHigh i = false)

/-! ## What a request leaves alone -/

/-- The registers inside the sequencer that no op but one that names them writes: SHREG, BITIDX, CMD, VAL, CHK, ATTEMPT,
ACKBIT, OK (R30), as one value to compare. -/
def State.innerRegs (s : State) : Byte × BitVec 3 × Byte × Byte × Byte × BitVec 2 × Level × Bool :=
  (s.shreg, s.bitidx, s.cmd, s.val, s.chk, s.attempt, s.ackbit, s.ok)

/-- The part of the state no request writes: the slave's hold, the count of free values, how much a step shows, and the
command codes the machine is built with. -/
def State.settings (s : State) : Bool × Nat × Bool × CommandCodes := (s.sdaHeld, s.freeIx, s.edgewise, s.codes)

/-- The slave script as far as it is used up. -/
def State.script (s : State) : List Level × Nat := (s.draws, s.drawIx)

/-- The host's offers: the request on the port and the ones to come. -/
def State.offers (s : State) : Bool × BitVec 4 × Byte × List RequestWord :=
  (s.reqValid, s.reqOp, s.reqArg, s.hostProgram)

/-- The host's side: `rst`, the offers, and the cycles to come. -/
def State.hostSide (s : State) : Bool × (Bool × BitVec 4 × Byte × List RequestWord) × List HostCycle :=
  (s.rst, s.offers, s.schedule)

/-! ## Parts of a state put in place -/

/-- A state without the host's offers, to compare two runs in which the host offers different requests. -/
def State.withoutOffers (s : State) : State :=
  { s with reqValid := false, reqOp := 0#4, reqArg := 0#8, hostProgram := [] }

/-- The host's moves at `n` edges, one after the other (R214). -/
def hostMoves : Nat → State → State
  | 0, s => s
  | n + 1, s => hostMoves n s.hostMove

/-- The state with another slave script. -/
def State.withScript (draws : List Level) (s : State) : State := { s with draws := draws }

/-- The state with another command byte in CMD. -/
def State.withCmd (c : Byte) (s : State) : State := { s with cmd := c }

/-- The state inside or right after a Wait of `n` units that began in `s`: DCNT at `d`, the step at `k` of the phase. -/
def State.inWait (n d : Nat) (ph : Phase) (k : Nat) (s : State) : State :=
  { s with rtrace := .wait n :: s.rtrace, dcnt := d, pos := .run ph k }

/-- What of a state is no register inside the sequencer: those of R30 that no value survives in (R37) are blanked. -/
def State.visible (s : State) : State :=
  { s with
    op := 0#4, arg := 0#8, shreg := 0#8, bitidx := 0#3, cmd := 0#8, val := 0#8, chk := 0#8, attempt := 0#2
    ackbit := false, ok := false }

/-- A state without its argument register and trace, to compare two runs whose ignored arguments differ. -/
def State.withoutArg (s : State) : State := { s with arg := 0#8, rtrace := [] }

/-- `t` is reached from `s` by one request of op code `op` and argument `arg`: it was latched (R25), the core is idle
again with the one-cycle pulse `rsp_valid` (R26), and the input `rst` is as before. -/
def Completes (op : BitVec 4) (arg : Byte) (s t : State) : Prop :=
  t.op = op ∧ t.arg = arg ∧ t.busy = false ∧ t.rspValid = true ∧ t.rst = s.rst

/-- The trace of `t` is that of `s` with one request: its Accept, the events `es`, its Respond (R28). -/
def Traced (op : BitVec 4) (arg : Byte) (es : List Event) (s t : State) : Prop :=
  t.trace = s.trace ++ [.accept op arg] ++ es ++ [.respond t.rspData t.rspErr]

/-- What READ_A_BYTE with the command byte `c` does (R155): result, attempts, samples used, trace, idle bus. -/
def ReadsRegister (c : Byte) (s t : State) : Prop :=
  Completes 0x9#4 c s t ∧
  t.rspData = transactionResult c s.sampleAt ∧ t.rspErr = false ∧
  t.attempt.toNat = attemptCount c s.sampleAt ∧
  t.drawIx = s.drawIx + attemptStart s.sampleAt (attemptCount c s.sampleAt) ∧
  t.draws = s.draws.drop (attemptStart s.sampleAt (attemptCount c s.sampleAt)) ∧
  t.sda = .d1 ∧ t.scl = .d1 ∧ t.dcnt = 0 ∧
  Traced 0x9#4 c (transactionEvents c s.sampleAt) s t

/-! ## Invariants -/

/-- SCL is driven, never released, and no Sample ever read it (R22). -/
def SclDriven (s : State) : Prop := s.scl ≠ .rel ∧ ∀ b, Event.sample .scl b ∉ s.trace

/-- The trace reads as requests one after the other, each with one Respond, the last one running exactly while BUSY is 1;
the pulse behind `rsp_valid` stands only while none is (R26, R27, R28, R62). -/
def TraceFramed (s : State) : Prop :=
  traceBusy false s.trace = some s.busy ∧ (s.rspPulse = true → s.busy = false)

/-- The sequencer position is one of the spec's: within the phase's list, an engine state only in a READ_A_BYTE, with
ATTEMPT counting from 1 to 3 (R32, R156, R157); DCNT counts only inside a Wait and at most its cycles (R35). -/
def LegalPosition (s : State) : Prop :=
  match s.pos with
  | .idle => s.dcnt = 0
  | .run ph k =>
    k ≤ (phaseActs ph s).length ∧
    (s.dcnt ≠ 0 → ∃ n, (phaseActs ph s)[k]? = some (.wait n) ∧ s.dcnt ≤ n * Config.delayFactor) ∧
    (ph ≠ .op → decodeOp s.op = .readAByte ∧ s.cmd = s.arg) ∧
    (ph = .attempt → s.attempt.toNat < Config.nAttempts) ∧
    (ph ≠ .op → ph ≠ .attempt → 1 ≤ s.attempt.toNat)

/-- In each engine state outside READ_VALUE, VALIDATE_CHECKSUM and ACCEPT, VAL is the sentinel and OK is 0; in READ_VALUE
and VALIDATE_CHECKSUM, where VAL may hold an unchecked value byte, OK is 0; in ACCEPT OK is 1 (R150 to R154). -/
def FailedValue (s : State) : Prop :=
  match s.pos with
  | .idle => True
  | .run .op _ => True
  | .run .attempt _ => s.val = Config.sentinel ∧ s.ok = false
  | .run .sendCmd _ => s.val = Config.sentinel ∧ s.ok = false
  | .run .checkAck _ => s.val = Config.sentinel ∧ s.ok = false
  | .run .readValue _ => s.ok = false
  | .run .ackFailed _ => s.val = Config.sentinel ∧ s.ok = false
  | .run .validate _ => s.ok = false
  | .run .accept _ => s.ok = true
  | .run .retry _ => s.val = Config.sentinel ∧ s.ok = false

end Sys2Proof.Machine
end

