-- ==== Sys2Proof/Certificates/Slice0/Obligations.lean ====
section
/-! DEFINITION. The statements for the provers, from the numbered rules of spec/. -/

open Sys2Proof Sys2Proof.Machine

/-! ## Reset and idle -/

/-- R36: the values the spec gives the state after reset. The registers it leaves unspecified are not in this statement. -/
def Obligations.ResetLeavesIdleBus : Prop :=
  State.reset.sda = .d1 ∧ State.reset.scl = .d1 ∧ State.reset.busy = false ∧ State.reset.reqReady = true ∧
  State.reset.rspValid = false ∧ State.reset.dcnt = 0 ∧ State.reset.pos = .idle ∧ State.reset.trace = []

/-- R230, R231: a cycle with `rst = 1`, in whatever state. The core shows neither ready nor a response and accepts nothing;
after the edge both lines are driven high, nothing runs, DCNT is 0, no response is given, the trace is empty (R36), and the
core is ready as soon as `rst` is 0. What the host and the slave do meanwhile is the model's choice (logs 3, 4, 5). -/
def Obligations.ResetEdgeAbandonsRequest : Prop :=
  ∀ s : State, s.rst = true →
    s.reqReady = false ∧ s.rspValid = false ∧ (∀ i, exec i s = .next s) ∧
    ∃ t, step s = .next t ∧ t.sda = .d1 ∧ t.scl = .d1 ∧ t.busy = false ∧ t.pos = .idle ∧ t.dcnt = 0 ∧
      t.rspValid = false ∧ t.trace = [] ∧ t.reqReady = !t.rst ∧ t.hostSide = s.hostMove.hostSide ∧ t.script = s.script ∧
      t.sdaHeld = s.sdaHeld

/-- R232, R27: with no request running and none offered a step emits nothing and changes no register; the pulse
`rsp_valid` is over. What the host does then is the model's choice (log 5). -/
def Obligations.IdleStepEmitsNothing : Prop :=
  ∀ s : State, s.reqReady = true → s.reqValid = false → s.contends = false →
    ∃ t, step s = .next t ∧ t.trace = s.trace ∧ t.sda = s.sda ∧ t.scl = s.scl ∧ t.pos = .idle ∧ t.dcnt = s.dcnt ∧
      t.op = s.op ∧ t.arg = s.arg ∧ t.innerRegs = s.innerRegs ∧ t.rspData = s.rspData ∧ t.rspErr = s.rspErr ∧
      t.rspValid = false ∧ t.script = s.script ∧ t.settings = s.settings ∧ t.hostSide = s.hostMove.hostSide

/-! ## The host port -/

/-- R25: `req_ready` is ¬BUSY (and 0 while `rst = 1`, R230); at the accepting edge OP and ARG are latched and BUSY is
set; a core that is not ready accepts no request, and the offer has no effect. -/
def Obligations.RequestLatchedOnlyWhenReady : Prop :=
  (∀ s : State, s.reqReady = (!s.busy && !s.rst)) ∧
  (∀ s : State, s.reqReady = true → s.reqValid = true → s.contends = false →
    ∃ t, tick s = .next t ∧ t.op = s.reqOp ∧ t.arg = s.reqArg ∧ t.busy = true ∧
      t.trace = s.trace ++ [.accept s.reqOp s.reqArg]) ∧
  (∀ (i : Instr) (s : State), s.reqReady = false → exec i s = .next s)

/-- R66: while a request runs, what the host puts on `req_valid`, `req_op` and `req_arg`, and what it has still to offer,
changes nothing of the step but these. -/
def Obligations.PortIgnoredWhileBusy : Prop :=
  ∀ s s' : State, s.withoutOffers = s'.withoutOffers → s.busy = true → s.rst = false →
    (∀ t, step s = .next t → ∃ t', step s' = .next t' ∧ t'.withoutOffers = t.withoutOffers) ∧
    (∀ f, step s = .fault f → step s' = .fault f)

/-- A step that can start a request runs exactly the decoded one; every other step is one edge; and an instruction of the
opcode table placed by `withFetchWord` is the one the next step runs (R57, R70), whatever command codes the machine is built
with. How much a step shows, and how a request is placed, are the model's choice (logs 5, 6, 9, 14). -/
def Obligations.StepRunsDecodedRequest : Prop :=
  (∀ s : State, s.runsRequest = true → step s = exec (decodeRequest s.portWord) s) ∧
  (∀ s : State, s.runsRequest = false → step s = tick s) ∧
  (∀ (s : State) (nbits w : Nat) (i : Instr), decodeTableWord nbits w = some i →
    step (s.withFetchWord nbits w) = exec i (s.withFetchWord nbits w))

/-- R26, R28: every accepted request completes, and adds to the trace one Accept, then events of the bus alone, then one
Respond with the response registers' values. The clauses on the model's own fields are its choice: each Sample uses up one
draw (log 3), the host goes on to its next request and its schedule stands still (logs 5, 6), and `sdaHeld`, `freeIx`,
`edgewise`, `codes` are as before (logs 2, 4, 6, 9). -/
def Obligations.OneRespondPerRequest : Prop :=
  ∀ (i : Instr) (s : State), Accepted i s →
    ∃ es t, exec i s = .next t ∧ Traced t.op t.arg es s t ∧ (∀ e ∈ es, e.onBus = true) ∧ t.busy = false ∧
      t.rspValid = true ∧ t.draws = s.draws.drop (es.countP Event.isSample) ∧
      t.drawIx = s.drawIx + es.countP Event.isSample ∧ t.hostSide = { s with reqValid := false }.offerNext.hostSide ∧
      t.settings = s.settings

/-! ## Decoding -/

/-- R72: the decode function on all 16 op codes, and the instruction each gives. -/
def Obligations.DecodeFunctionTable : Prop :=
  decodeOp 0x1#4 = .delay ∧ decodeOp 0x2#4 = .busStart ∧ decodeOp 0x3#4 = .busStop ∧ decodeOp 0x4#4 = .sendByte ∧
  decodeOp 0x5#4 = .readByte ∧ decodeOp 0x6#4 = .checkAck ∧ decodeOp 0x7#4 = .sendAck ∧ decodeOp 0x8#4 = .sendNak ∧
  decodeOp 0x9#4 = .readAByte ∧
  (∀ op : BitVec 4, op = 0x0#4 ∨ 0xA#4 ≤ op → decodeOp op = .reserved) ∧
  (∀ a : Byte,
    decodeFields 0x1#4 a = .delay a ∧ decodeFields 0x2#4 a = .busStart a ∧ decodeFields 0x3#4 a = .busStop a ∧
    decodeFields 0x4#4 a = .sendByte a ∧ decodeFields 0x5#4 a = .readByte a ∧ decodeFields 0x6#4 a = .checkAck a ∧
    decodeFields 0x7#4 a = .sendAck a ∧ decodeFields 0x8#4 a = .sendNak a ∧ decodeFields 0x9#4 a = .readAByte a ∧
    decodeFields 0x0#4 a = .reserved0 a ∧ decodeFields 0xA#4 a = .reservedA a ∧ decodeFields 0xB#4 a = .reservedB a ∧
    decodeFields 0xC#4 a = .reservedC a ∧ decodeFields 0xD#4 a = .reservedD a ∧ decodeFields 0xE#4 a = .reservedE a ∧
    decodeFields 0xF#4 a = .reservedF a)

/-- R70: `op` is bits 11 to 8 of the word and `arg` bits 7 to 0. -/
def Obligations.WordFieldsAreBits : Prop :=
  ∀ w : RequestWord,
    (∀ i, i < 4 → (requestOp w).getLsbD i = w.getLsbD (i + 8)) ∧
    (∀ i, i < 8 → (requestArg w).getLsbD i = w.getLsbD i)

/-- Decoding what the encoder writes gives the instruction back, for every well-formed instruction of both formats and all
distinct values of the command parameters (R9, R70, R72, R80; that distinctness is asked for is log 9's). -/
def Obligations.DecodeOfEncodeIsSame : Prop :=
  ∀ (codes : CommandCodes) (i : Instr), codes.distinct = true → i.wellFormed = true → decode codes (encode codes i) = .ok i

/-- Encoding what the decoder reads gives the bits back, for every request word and every command byte that is decoded, and
all values of the command parameters, distinct or not. -/
def Obligations.EncodeOfDecodeIsSame : Prop :=
  ∀ (codes : CommandCodes) (e : Encoding) (i : Instr), decode codes e = .ok i → encode codes i = e

/-- Words written out by the spec (95_test_vectors.md L2.1, P1 to P6) decode to their ops. -/
def Obligations.SpecWordsDecode : Prop :=
  decodeRequest 0x971#12 = .readAByte 0x71#8 ∧ decodeRequest 0x4A5#12 = .sendByte 0xA5#8 ∧
  decodeRequest 0x2FF#12 = .busStart 0xFF#8 ∧ decodeRequest 0x000#12 = .reserved0 0x00#8 ∧
  decodeRequest 0xF12#12 = .reservedF 0x12#8 ∧ decodeRequest 0xA00#12 = .reservedA 0x00#8 ∧
  decodeRequest 0x1FF#12 = .delay 0xFF#8 ∧ decodeRequest 0x300#12 = .busStop 0x00#8 ∧
  decodeRequest 0x600#12 = .checkAck 0x00#8 ∧ decodeRequest 0x500#12 = .readByte 0x00#8 ∧
  decodeRequest 0x700#12 = .sendAck 0x00#8 ∧ decodeRequest 0x800#12 = .sendNak 0x00#8

/-! ## Timing and framing -/

/-- R100: DELAY from any drive state: one `Wait(ARG)`, then Respond with RSP_DATA kept; nothing else changes. -/
def Obligations.DelayWaitsItsUnits : Prop :=
  ∀ (n : Byte) (s : State), Accepted (.delay n) s →
    ∃ t, exec (.delay n) s = .next t ∧ Completes 0x1#4 n s t ∧ t.sda = s.sda ∧ t.scl = s.scl ∧
      t.rspData = s.rspData ∧ t.rspErr = false ∧ t.innerRegs = s.innerRegs ∧ t.dcnt = 0 ∧
      Traced 0x1#4 n [.wait n.toNat] s t

/-- R101, R102: BUS_START from any drive state emits the five events of busStart; SDA is left driven low, SCL high. -/
def Obligations.BusStartMakesStart : Prop :=
  ∀ (a : Byte) (s : State), Accepted (.busStart a) s →
    ∃ t, exec (.busStart a) s = .next t ∧ Completes 0x2#4 a s t ∧ t.sda = .d0 ∧ t.scl = .d1 ∧
      t.rspData = s.rspData ∧ t.rspErr = false ∧ t.innerRegs = s.innerRegs ∧ t.dcnt = 0 ∧
      Traced 0x2#4 a busStartEvents s t

/-- R104, R105: BUS_STOP from any drive state emits the seven events of busStop; both lines are left driven high. -/
def Obligations.BusStopLeavesIdleBus : Prop :=
  ∀ (a : Byte) (s : State), Accepted (.busStop a) s →
    ∃ t, exec (.busStop a) s = .next t ∧ Completes 0x3#4 a s t ∧ t.sda = .d1 ∧ t.scl = .d1 ∧
      t.rspData = s.rspData ∧ t.rspErr = false ∧ t.innerRegs = s.innerRegs ∧ t.dcnt = 0 ∧
      Traced 0x3#4 a busStopEvents s t

/-- R29, R76, R102, R105: the pairs after each event, runs merged, are `11 01` for a BUS_START from the idle bus and
`10 00 01 11` for a BUS_STOP; with the idle pair in front, `11 01` is one start and no stop, and `11 10 00 01 11` one stop
and no start (95_test_vectors.md L2.2.3, L2.2.6). SDA is driven throughout, so this holds for whatever levels are given
for a released line (log 17). -/
def Obligations.FramingOnTheWire : Prop :=
  ∀ (a : Byte) (s : State) (start : Level) (rel : List Level), s.pads = (.d1, .d1) →
    (Accepted (.busStart a) s → ∃ es t, exec (.busStart a) s = .next t ∧ Traced 0x2#4 a es s t ∧
      wire s.pads rel es = [(true, true), (false, true)] ∧
      wireFrom s.pads start rel es = [(true, true), (false, true)] ∧
      startCount (wireFrom s.pads start rel es) = 1 ∧ stopCount (wireFrom s.pads start rel es) = 0) ∧
    (Accepted (.busStop a) s → ∃ es t, exec (.busStop a) s = .next t ∧ Traced 0x3#4 a es s t ∧
      wire s.pads rel es = [(true, false), (false, false), (false, true), (true, true)] ∧
      wireFrom s.pads start rel es = [(true, true), (true, false), (false, false), (false, true), (true, true)] ∧
      startCount (wireFrom s.pads start rel es) = 0 ∧ stopCount (wireFrom s.pads start rel es) = 1)

/-! ## Bit-level transfer -/

/-- R120, R121: SEND_BYTE emits the 57 events of sendByte, most significant bit first; SDA is left released, SCL low, and
BITIDX at 0; no flag and no result is written. -/
def Obligations.SendByteShiftsOutMsbFirst : Prop :=
  ∀ (v : Byte) (s : State), Accepted (.sendByte v) s →
    ∃ t, exec (.sendByte v) s = .next t ∧ Completes 0x4#4 v s t ∧ t.sda = .rel ∧ t.scl = .d0 ∧
      t.rspData = s.rspData ∧ t.rspErr = false ∧ t.innerRegs = { s with bitidx := 0#3 }.innerRegs ∧
      t.dcnt = 0 ∧ Traced 0x4#4 v (sendByteEvents v) s t

/-- R124, R125: READ_BYTE takes eight samples, the first into bit 7, and responds with the byte. -/
def Obligations.ReadByteAssemblesSamples : Prop :=
  ∀ (a : Byte) (s : State), Accepted (.readByte a) s →
    ∃ t, exec (.readByte a) s = .next t ∧ Completes 0x5#4 a s t ∧ t.sda = .rel ∧ t.scl = .d0 ∧
      t.rspData = byteAt s.sampleAt 0 ∧ (∀ i, i < 8 → t.rspData.getLsbD i = s.sampleAt (7 - i)) ∧ t.rspErr = false ∧
      t.innerRegs = { s with bitidx := 0#3, shreg := byteAt s.sampleAt 0 }.innerRegs ∧
      t.dcnt = 0 ∧ Traced 0x5#4 a (readByteEvents s.sampleAt 0) s t

/-- R128, R129: CHECK_ACK takes one sample into ACKBIT and responds with it: 0x00 = ACK, 0x01 = no ACK. -/
def Obligations.CheckAckReportsSample : Prop :=
  ∀ (a : Byte) (s : State), Accepted (.checkAck a) s →
    ∃ t, exec (.checkAck a) s = .next t ∧ Completes 0x6#4 a s t ∧ t.sda = .rel ∧ t.scl = .d0 ∧
      t.rspData = (if s.sampleAt 0 then 0x01#8 else 0x00#8) ∧ t.rspErr = false ∧
      t.innerRegs = { s with ackbit := s.sampleAt 0 }.innerRegs ∧
      t.dcnt = 0 ∧ Traced 0x6#4 a (releasedBitEvents (s.sampleAt 0)) s t

/-- R130, R131: SEND_ACK emits the seven events of sendACK; both lines are left driven low. -/
def Obligations.SendAckPulsesLow : Prop :=
  ∀ (a : Byte) (s : State), Accepted (.sendAck a) s →
    ∃ t, exec (.sendAck a) s = .next t ∧ Completes 0x7#4 a s t ∧ t.sda = .d0 ∧ t.scl = .d0 ∧
      t.rspData = s.rspData ∧ t.rspErr = false ∧ t.innerRegs = s.innerRegs ∧ t.dcnt = 0 ∧
      Traced 0x7#4 a sendAckEvents s t

/-- R132, R133: SEND_NAK emits the six events of sendNAK, with no final clock fall; both lines are left driven high. -/
def Obligations.SendNakLeavesClockHigh : Prop :=
  ∀ (a : Byte) (s : State), Accepted (.sendNak a) s →
    ∃ t, exec (.sendNak a) s = .next t ∧ Completes 0x8#4 a s t ∧ t.sda = .d1 ∧ t.scl = .d1 ∧
      t.rspData = s.rspData ∧ t.rspErr = false ∧ t.innerRegs = s.innerRegs ∧ t.dcnt = 0 ∧
      Traced 0x8#4 a sendNakEvents s t

/-- R126: on a loopback bus, whose slave gives back the levels it recorded at the SCL rises of a SEND_BYTE, the READ_BYTE
that follows returns the byte sent. -/
def Obligations.LoopbackReturnsByteSent : Prop :=
  ∀ (v a : Byte) (s : State), s.reqReady = true → s.sdaHeld = false →
    ∃ es t, exec (.sendByte v) s = .next t ∧ Traced 0x4#4 v es s t ∧
      ∀ more, ∃ u, exec (.readByte a) (t.withScript (sdaAtRises s.pads es ++ more)) = .next u ∧ u.rspData = v

/-- R146: the SCL rises of each procedure as the machine runs it, from any state in which SCL is driven. -/
def Obligations.ClockRisesPerProcedure : Prop :=
  ∀ (v : Byte) (s : State) (acts : List Act) (n : Nat), s.scl ≠ .rel →
    (acts, n) ∈ [(sendByte v, 8), (readByte, 8), (checkAck, 1), (sendAck, 1), (sendNak, 1),
      (busStart, if s.scl = .d0 then 1 else 0), (busStop, 1)] →
    ∃ es, (runActs acts s).trace = s.trace ++ es ∧ sclRises s.pads es = n

/-- R145: as the machine runs each procedure, from any state, the drive state of SDA changes only while SCL is low, but
for busStart's start (and its first event when SCL was high and SDA not already driven high) and busStop's stop. -/
def Obligations.SdaChangesOnlyWhileClockLow : Prop :=
  ∀ (v : Byte) (s : State) (acts : List Act) (n : Nat),
    (acts, n) ∈ [(sendByte v, 0), (readByte, 0), (checkAck, 0), (sendAck, 0), (sendNak, 0),
      (busStart, if s.scl = .d1 ∧ s.sda ≠ .d1 then 2 else 1), (busStop, 1)] →
    ∃ es, (runActs acts s).trace = s.trace ++ es ∧ sdaChangesWhileHigh s.pads es = n

/-- R148: the number of events, waits and samples of each procedure's run by the machine, from any state. -/
def Obligations.EventCountsPerProcedure : Prop :=
  ∀ (v : Byte) (s : State) (acts : List Act) (n w m : Nat),
    (acts, n, w, m) ∈ [(sendByte v, 57, 24, 0), (readByte, 49, 16, 8), (checkAck, 7, 2, 1), (sendAck, 7, 3, 0),
      (sendNak, 6, 3, 0)] →
    ∃ es, (runActs acts s).trace = s.trace ++ es ∧ es.length = n ∧ es.countP Event.isWait = w ∧
      es.countP Event.isSample = m ∧ ∀ e ∈ es, e.isWait = true → e = .wait Config.tPh

/-- R147: every Sample an instruction makes, in whatever state it starts, is made with SDA released and SCL at 1. -/
def Obligations.SamplesOnlyReleasedLine : Prop :=
  ∀ (i : Instr) (s t : State), exec i s = .next t →
    ∃ es, t.trace = s.trace ++ es ∧ samplesReleased s.pads es = true

/-! ## Reserved op codes -/

/-- R73: a request with a reserved op code emits no event, responds with RSP_DATA kept and `rsp_err = 1`, and changes no
other register, for all seven codes; every other op responds with `rsp_err = 0`. -/
def Obligations.ReservedOpsRespondError : Prop :=
  (∀ (a : Byte) (s : State) (op : BitVec 4) (i : Instr),
    (op, i) ∈ [(0x0#4, Instr.reserved0 a), (0xA#4, .reservedA a), (0xB#4, .reservedB a), (0xC#4, .reservedC a),
      (0xD#4, .reservedD a), (0xE#4, .reservedE a), (0xF#4, .reservedF a)] →
    Accepted i s →
    ∃ t, exec i s = .next t ∧ Completes op a s t ∧ t.sda = s.sda ∧ t.scl = s.scl ∧ t.rspData = s.rspData ∧
      t.rspErr = true ∧ t.innerRegs = s.innerRegs ∧ t.dcnt = s.dcnt ∧ Traced op a [] s t) ∧
  (∀ (i : Instr) (s t : State), Accepted i s → exec i s = .next t →
    (t.rspErr = true ↔ decodeOp t.op = .reserved))

/-! ## The command/response engine -/

/-- R151 to R155: READ_A_BYTE completes from every state in which it is accepted: its attempts' events in order, the value
byte of the accepted attempt or 0xFF as its result, the bus idle at its end. Each Sample uses up one draw (log 3). -/
def Obligations.ReadAByteRunsTransaction : Prop :=
  ∀ (c : Byte) (s : State), Accepted (.readAByte c) s →
    ∃ t, exec (.readAByte c) s = .next t ∧ ReadsRegister c s t

/-- The twelve command bytes: each completes, with the next state of the READ_A_BYTE of the byte the machine's command codes
give it, whatever they are (R9, R80). That a command byte is run so is the model's choice (logs 8, 9). -/
def Obligations.CommandBytesRunTransaction : Prop :=
  ∀ (s : State) (c : Byte) (i : Instr),
    (c, i) ∈ [(s.codes.cmdTypeLb, Instr.cmdTypeLb), (s.codes.cmdTypeHb, .cmdTypeHb), (s.codes.cmdParams, .cmdParams),
      (s.codes.cmdStatus, .cmdStatus), (s.codes.cmdHumLb, .cmdHumLb), (s.codes.cmdHumHb, .cmdHumHb),
      (s.codes.cmdTempLb, .cmdTempLb), (s.codes.cmdTempHb, .cmdTempHb), (s.codes.cmdPresLb, .cmdPresLb),
      (s.codes.cmdPresHb, .cmdPresHb), (s.codes.cmdCo2Lb, .cmdCo2Lb), (s.codes.cmdCo2Hb, .cmdCo2Hb)] →
    Accepted i s → ∃ t, exec i s = .next t ∧ exec (.readAByte c) s = .next t ∧ ReadsRegister c s t

/-- R30, R33, R150 to R153: the registers after a READ_A_BYTE: CMD is the command, VAL the result, OK says whether an
attempt passed, ACKBIT is the last attempt's acknowledge; SHREG and CHK hold the last checksum byte read, and are as
before if no attempt was acknowledged. -/
def Obligations.ReadAByteRegisters : Prop :=
  ∀ (c : Byte) (s t : State), Accepted (.readAByte c) s → exec (.readAByte c) s = .next t →
    let f := s.sampleAt
    let n := attemptCount c f
    t.cmd = c ∧ t.val = t.rspData ∧ t.ok = attemptPasses c f (n - 1) ∧ t.ackbit = f (attemptStart f (n - 1)) ∧
    t.bitidx = 0#3 ∧
    ((∀ j < n, attemptAcked f j = false) → t.shreg = s.shreg ∧ t.chk = s.chk) ∧
    (∀ j < n, attemptAcked f j = true → (∀ j' < n, j < j' → attemptAcked f j' = false) →
      t.shreg = attemptChecksum f j ∧ t.chk = attemptChecksum f j)

/-- R157: the number of attempts is `min(k, 3)`, `k` the 1-based number of the first attempt that is acknowledged and
passes its checksum, and 3 if none of the first three does; so it is 3 when the slave never acknowledges. -/
def Obligations.AttemptsAreMinOfFirstPass : Prop :=
  ∀ (c : Byte) (s t : State), Accepted (.readAByte c) s → exec (.readAByte c) s = .next t →
    (∀ k, 1 ≤ k → attemptPasses c s.sampleAt (k - 1) = true → (∀ j < k - 1, attemptPasses c s.sampleAt j = false) →
      t.attempt.toNat = min k 3) ∧
    ((∀ j < 3, attemptPasses c s.sampleAt j = false) → t.attempt.toNat = 3) ∧
    1 ≤ t.attempt.toNat ∧ t.attempt.toNat ≤ 3 ∧
    ((∀ j < 3, attemptAcked s.sampleAt j = false) → t.attempt.toNat = 3) ∧
    (∀ j < 2, attemptAcked s.sampleAt j = true → (∀ j' ≤ j, attemptPasses c s.sampleAt j' = false) →
      j + 2 ≤ t.attempt.toNat)

/-- R158: the result is the value byte of the accepted attempt if there is one, and then result plus command is the
checksum byte received in it; otherwise it is 0xFF. -/
def Obligations.ResultMatchesChecksum : Prop :=
  ∀ (c : Byte) (s t : State), Accepted (.readAByte c) s → exec (.readAByte c) s = .next t →
    (∀ j < 3, attemptPasses c s.sampleAt j = true → (∀ j' < j, attemptPasses c s.sampleAt j' = false) →
      t.rspData = attemptValue s.sampleAt j ∧ t.rspData + c = attemptChecksum s.sampleAt j) ∧
    ((∀ j < 3, attemptPasses c s.sampleAt j = false) → t.rspData = 0xFF#8)

/-- R151, R154 (95_test_vectors.md L2.7.4): on a bus whose acknowledge is 1 at every attempt the call makes exactly three
attempts of 76 events and returns 0xFF. -/
def Obligations.NeverAcknowledgedGivesSentinel : Prop :=
  ∀ (c : Byte) (s : State), Accepted (.readAByte c) s → (∀ j < 3, s.sampleAt j = true) →
    ∃ es t, exec (.readAByte c) s = .next t ∧ t.rspData = 0xFF#8 ∧ t.rspErr = false ∧ t.attempt = 3#2 ∧
      t.drawIx = s.drawIx + 3 ∧ Traced 0x9#4 c es s t ∧ es.length = 228

/-- R159, R240: one attempt of the engine, from any state: 187 events and 17 samples if acknowledged, 76 and 1 if not,
with the wait content the spec adds up. -/
def Obligations.AttemptSizeAndWaits : Prop :=
  ∀ s : State, ∃ es, (attempt s).trace = s.trace ++ es ∧
    es.length = (if s.sampleAt 0 then 76 else 187) ∧
    es.countP Event.isSample = (if s.sampleAt 0 then 1 else 17) ∧
    waitUnits es =
      Config.tSuSta + Config.tHdSta + (if s.sampleAt 0 then 26 else 64) * Config.tPh + 3 * Config.tStop

/-- R240: the wait content of each of the eight primitive ops, from the trace the machine leaves. -/
def Obligations.WaitContentPerOp : Prop :=
  ∀ (a : Byte) (s : State) (i : Instr) (op : BitVec 4) (units : Nat),
    (i, op, units) ∈ [(Instr.delay a, 0x1#4, a.toNat), (.busStart a, 0x2#4, Config.tSuSta + Config.tHdSta),
      (.busStop a, 0x3#4, 3 * Config.tStop), (.sendByte a, 0x4#4, 24 * Config.tPh),
      (.readByte a, 0x5#4, 16 * Config.tPh), (.checkAck a, 0x6#4, 2 * Config.tPh), (.sendAck a, 0x7#4, 3 * Config.tPh),
      (.sendNak a, 0x8#4, 3 * Config.tPh)] →
    Accepted i s → ∃ es t, exec i s = .next t ∧ Traced op a es s t ∧ waitUnits es = units

/-- R82: the pseudo-instruction ATTEMPT, run by the host request by request, makes the same bus events as one attempt of
READ_A_BYTE with that command, and gives the host the bytes that attempt reads. The host's procedure is log 16's. -/
def Obligations.AttemptByHandEqualsAttempt : Prop :=
  ∀ (c : Byte) (s : State), s.reqReady = true → s.sdaHeld = false →
    ∃ r t es new, attemptByHand (.imm c.toNat) s = some (r, t) ∧
      (attempt (s.withCmd c)).trace = s.trace ++ es ∧
      t.trace = s.trace ++ new ∧ new.filter Event.onBus = es ∧
      r = (if s.sampleAt 0 then none else some (byteAt s.sampleAt 1, byteAt s.sampleAt 9))

/-! ## Whole-machine rules -/

/-- R71: an op that ignores its argument does the same for any two values of it: the answers differ in ARG and in the
Accept event alone. -/
def Obligations.IgnoredArgumentChangesNothing : Prop :=
  ∀ (mk : Byte → Instr) (a b : Byte) (s : State),
    (mk = .busStart ∨ mk = .busStop ∨ mk = .readByte ∨ mk = .checkAck ∨ mk = .sendAck ∨ mk = .sendNak ∨
      mk = .reserved0 ∨ mk = .reservedA ∨ mk = .reservedB ∨ mk = .reservedC ∨ mk = .reservedD ∨ mk = .reservedE ∨
      mk = .reservedF) →
    Accepted (mk a) s →
    ∃ t u es, exec (mk a) s = .next t ∧ exec (mk b) s = .next u ∧
      t.withoutArg = u.withoutArg ∧ Traced t.op a es s t ∧ Traced u.op b es s u

/-- R37: no value of OP, ARG, SHREG, BITIDX, CMD, VAL, CHK, ATTEMPT, ACKBIT or OK survives into a request's visible
behaviour: two states that differ only in these give the same answer but for these registers. So no reset value named in
log 1 for one of them can be observed. -/
def Obligations.InnerRegistersDoNotLeak : Prop :=
  ∀ (i : Instr) (s s' : State), s.visible = s'.visible →
    (∀ t, exec i s = .next t → ∃ t', exec i s' = .next t' ∧ t.visible = t'.visible) ∧
    (∀ f, exec i s = .fault f → exec i s' = .fault f)

/-- R23 (log 4): an accepted request is stopped by contention exactly when the slave holds SDA low and the core drives it
high, already or in this request. -/
def Obligations.ContentionStopsRequest : Prop :=
  ∀ (i : Instr) (s : State), s.reqReady = true →
    (exec i s = .fault .contention ↔ s.sdaHeld = true ∧ (s.sda = .d1 ∨ drivesSdaHigh i = true))

/-- R32, R57: a step that runs a whole request is a run of the sequencer's edges: the same next state, or the same stop.
The two granularities are the model's choice (log 6). -/
def Obligations.StepIsRunOfEdges : Prop :=
  ∀ s : State, s.runsRequest = true → s.dcnt = 0 →
    (∀ t, step s = .next t → ∃ n, ticks n s = .next t) ∧
    (∀ f, step s = .fault f → ∃ n, ticks n s = .fault f)

/-- R161, R201, R26: from every legal position of a running request, with no reset now or in the host's schedule and a
slave that lets SDA go, some number of edges brings the request to its Respond. What one edge is, is the model's choice
(logs 6, 7). -/
def Obligations.EveryRequestEnds : Prop :=
  ∀ s : State, LegalPosition s → s.busy = true → s.rst = false → (∀ c ∈ s.schedule, c.rst = false) → s.sdaHeld = false →
    ∃ n t, ticks n s = .next t ∧ t.busy = false ∧ t.rspValid = true

/-- R10, R35: a Wait of `n` units at step `k` takes `c = n × DELAY_FACTOR` cycles: one edge emits it and loads DCNT with
`c`, each further edge counts DCNT down by one, and the step advances when DCNT is 0; a wait of no cycles advances at
once. The host raises no reset in these cycles; its other moves go on. That the event takes an edge of its own is the
model's choice (logs 7, 15). -/
def Obligations.WaitTakesItsCycles : Prop :=
  ∀ (s : State) (ph : Phase) (k n m : Nat), s.pos = .run ph k → s.dcnt = 0 → s.rst = false →
    (∀ c ∈ s.schedule.take m, c.rst = false) → s.contends = false →
    (phaseActs ph s)[k]? = some (.wait n) → m ≤ n * Config.delayFactor →
    ticks (1 + m) s =
      .next (hostMoves (1 + m)
        (s.inWait n (n * Config.delayFactor - m) ph (if m = n * Config.delayFactor then k + 1 else k)))

/-! ## Invariants -/

/-- R22: SCL is driven at all times and never sampled: every step keeps it so. -/
def Obligations.SclDrivenIsKept : Prop :=
  ∀ s t : State, SclDriven s → step s = .next t → SclDriven t

/-- R26, R27, R28, R62: every step keeps the trace a sequence of requests, each an Accept, its events and one Respond, the
last one running exactly while BUSY is 1, and the pulse behind `rsp_valid` outside requests. -/
def Obligations.TraceFramedIsKept : Prop :=
  ∀ s t : State, TraceFramed s → step s = .next t → TraceFramed t

/-- R32, R35, R156: every step keeps the sequencer position legal and DCNT within the Wait it counts. -/
def Obligations.LegalPositionIsKept : Prop :=
  ∀ s t : State, LegalPosition s → step s = .next t → LegalPosition t

/-- R150 to R154: every step keeps VAL at the sentinel and OK at 0 in each engine state outside READ_VALUE,
VALIDATE_CHECKSUM and ACCEPT; in the first two it keeps OK at 0, in ACCEPT at 1. -/
def Obligations.FailedValueIsKept : Prop :=
  ∀ s t : State, FailedValue s → step s = .next t → FailedValue t

/-- The four invariants hold in the state after reset. -/
def Obligations.InvariantsHoldAtReset : Prop :=
  SclDriven State.reset ∧ TraceFramed State.reset ∧ LegalPosition State.reset ∧ FailedValue State.reset

/-! ## The host as a client -/

/-- R182: when the first status read of a status-checked 16-bit read is not 0x00, the accessor returns its sentinel after
exactly two requests: the high byte is not requested. The host's procedure is log 16's. -/
def Obligations.StaleStatusSkipsHighByte : Prop :=
  ∀ (cLb cHb : CommandCodes → Byte) (s : State), s.reqReady = true → s.sdaHeld = false →
    let n := attemptStart s.sampleAt (attemptCount (cLb s.codes) s.sampleAt)
    transactionResult s.codes.cmdStatus (fun k => s.sampleAt (n + k)) ≠ 0x00#8 →
    ∃ t new, read16 cLb cHb s = some (none, t) ∧ t.trace = s.trace ++ new ∧ new.countP Event.isAccept = 2

/-! ## The sequencer's step -/

/-- R32: the list a phase runs through has one entry for each event, and `step` is the index of the next one. In every
state, running a phase's list adds exactly as many events as the list has entries, all of the bus; and at step `k`, outside
reset and contention, an entry that is no Wait takes one edge, which adds exactly one event and advances the step by one.
That such an entry takes one edge, where the spec lets it take any bounded number of cycles (R240), is the model's choice
(log 7), and so is that register writes between events happen at an event's edge (log 19). Of a Wait
`WaitTakesItsCycles` says it. -/
def Obligations.EachEventIsOneStep : Prop :=
  (∀ (ph : Phase) (s : State), ∃ es, (runActs (phaseActs ph s) s).trace = s.trace ++ es ∧
    es.length = (phaseActs ph s).length ∧ ∀ e ∈ es, e.onBus = true) ∧
  (∀ (s : State) (ph : Phase) (k : Nat) (a : Act), s.pos = .run ph k → s.dcnt = 0 → s.rst = false →
    s.contends = false → (phaseActs ph s)[k]? = some a → (∀ n, a ≠ .wait n) →
    ∃ e t, tick s = .next t ∧ t.trace = s.trace ++ [e] ∧ e.onBus = true ∧ t.pos = .run ph (k + 1) ∧ t.dcnt = 0)

/-! ## The host's liberties and duties -/

/-- R214: the host holds `req_valid`, `req_op` and `req_arg` steady until the accepting edge. At every edge that finds a
request on the port the core accepts exactly it, or, if it is not ready, the same request stands on the port after the edge.
How the host's move is placed at the edge is the model's choice (log 5), and that the host keeps this duty is the assumption
log 5 lists, erring toward proving. -/
def Obligations.OfferHeldUntilAccepted : Prop :=
  ∀ s t : State, s.reqValid = true → tick s = .next t →
    (s.reqReady = true → t.op = s.reqOp ∧ t.arg = s.reqArg ∧ t.busy = true ∧
      t.trace = s.trace ++ [.accept s.reqOp s.reqArg]) ∧
    (s.reqReady = false → t.offers = s.offers)

/-- R214: the host may offer a request in any cycle. When its schedule lets `n` cycles pass without an offer and then makes
one, a core that is idle with a free port is still so after `n` edges, its trace unchanged; the next edge puts the host's
next request on the port, and the edge after that accepts it (R25). The schedule is the model's form of it (log 5). -/
def Obligations.HostMayOfferInAnyCycle : Prop :=
  ∀ (s : State) (n : Nat) (w : RequestWord) (ws : List RequestWord) (cs : List HostCycle),
    s.schedule = List.replicate n ⟨false, false⟩ ++ ⟨false, true⟩ :: cs → s.hostProgram = w :: ws →
    s.reqReady = true → s.reqValid = false → s.contends = false →
    ∃ t u v, ticks n s = .next t ∧ t.reqReady = true ∧ t.reqValid = false ∧ t.trace = s.trace ∧
      tick t = .next u ∧ u.reqReady = true ∧ u.trace = s.trace ∧
      u.offers = (true, requestOp w, requestArg w, ws) ∧ u.schedule = cs ∧
      tick u = .next v ∧ v.busy = true ∧ v.trace = s.trace ++ [.accept (requestOp w) (requestArg w)]

/-- R214, R230, R231: the host may assert `rst` in any cycle. When its schedule raises `rst` after any number of cycles
without, then from whatever state, in whatever request, that many edges and one more bring `rst` to 1, with neither
`req_ready` nor `rsp_valid`, and the edge after that leaves the idle bus with no request, no response and an empty trace.
The schedule is the model's form of it (log 5); the slave lets SDA go (log 4). -/
def Obligations.HostMayResetInAnyCycle : Prop :=
  ∀ (s : State) (pre : List HostCycle) (b : Bool) (cs : List HostCycle),
    s.schedule = pre ++ ⟨true, b⟩ :: cs → (∀ c ∈ pre, c.rst = false) → s.rst = false → s.sdaHeld = false →
    ∃ t u, ticks (pre.length + 1) s = .next t ∧ t.rst = true ∧ t.reqReady = false ∧ t.rspValid = false ∧
      tick t = .next u ∧ u.sda = .d1 ∧ u.scl = .d1 ∧ u.pos = .idle ∧ u.dcnt = 0 ∧ u.rspValid = false ∧ u.trace = []

/-! ## The command codes -/

/-- THE MODEL'S CHOICE (log 9): no step changes the command codes, whatever they are. The spec names `CMD_*` as parameters of
the model (R9, R80) and not among the build-time constants of R38. That they stand in the state, and are fixed for a
machine's life, is the model's own. -/
def Obligations.CommandCodesAreFixed : Prop :=
  ∀ s t : State, step s = .next t → t.codes = s.codes
end

