-- ==== Sys2Proof/Laws/Decode.lean ====
section
/-! SUPPORT. The fields of a request word, and the sixteen op codes as cases. -/

namespace Sys2Proof

theorem requestOp_requestWord (op : BitVec 4) (arg : Byte) : requestOp (requestWord op arg) = op := by
  unfold requestOp requestWord
  apply BitVec.eq_of_getLsbD_eq
  intro i hi
  rw [BitVec.getLsbD_extractLsb', BitVec.getLsbD_append]
  simp [hi]

theorem requestArg_requestWord (op : BitVec 4) (arg : Byte) : requestArg (requestWord op arg) = arg := by
  unfold requestArg requestWord
  apply BitVec.eq_of_getLsbD_eq
  intro i hi
  rw [BitVec.getLsbD_extractLsb', BitVec.getLsbD_append]
  simp [hi]

/-- A word is its two fields put together (R70). -/
theorem requestWord_fields (w : RequestWord) : requestWord (requestOp w) (requestArg w) = w := by
  unfold requestOp requestArg requestWord
  apply BitVec.eq_of_getLsbD_eq
  intro i hi
  rw [BitVec.getLsbD_append]
  split
  · rename_i h; simp [h]
  · rename_i h; simp at h; simp [show i - 8 < 4 by omega, show 8 + (i - 8) = i by omega]

/-- What holds of each of the sixteen op codes holds of every op code. -/
theorem opCode_cases (P : BitVec 4 → Prop) (h0 : P 0x0#4) (h1 : P 0x1#4) (h2 : P 0x2#4) (h3 : P 0x3#4)
    (h4 : P 0x4#4) (h5 : P 0x5#4) (h6 : P 0x6#4) (h7 : P 0x7#4) (h8 : P 0x8#4) (h9 : P 0x9#4) (hA : P 0xA#4)
    (hB : P 0xB#4) (hC : P 0xC#4) (hD : P 0xD#4) (hE : P 0xE#4) (hF : P 0xF#4) (op : BitVec 4) : P op := by
  obtain ⟨⟨n, hn⟩⟩ := op
  interval_cases n <;> assumption

end Sys2Proof
end

