-- ==== Sys2Proof/Laws/State.lean ====
section
/-! SUPPORT. One lemma per field per update of the state, so that no proof unfolds a record update. -/

namespace Sys2Proof.Machine

/-! ## The host's move writes the inputs and the host's own fields alone -/

@[simp] theorem State.offerNext_sda (s : State) :
    (s.offerNext).sda = s.sda := by
  unfold State.offerNext; split <;> rfl
@[simp] theorem State.offerNext_scl (s : State) :
    (s.offerNext).scl = s.scl := by
  unfold State.offerNext; split <;> rfl
@[simp] theorem State.offerNext_rst (s : State) :
    (s.offerNext).rst = s.rst := by
  unfold State.offerNext; split <;> rfl
@[simp] theorem State.offerNext_rspPulse (s : State) :
    (s.offerNext).rspPulse = s.rspPulse := by
  unfold State.offerNext; split <;> rfl
@[simp] theorem State.offerNext_rspData (s : State) :
    (s.offerNext).rspData = s.rspData := by
  unfold State.offerNext; split <;> rfl
@[simp] theorem State.offerNext_rspErr (s : State) :
    (s.offerNext).rspErr = s.rspErr := by
  unfold State.offerNext; split <;> rfl
@[simp] theorem State.offerNext_op (s : State) : (s.offerNext).op = s.op := by
  unfold State.offerNext; split <;> rfl
@[simp] theorem State.offerNext_arg (s : State) :
    (s.offerNext).arg = s.arg := by
  unfold State.offerNext; split <;> rfl
@[simp] theorem State.offerNext_shreg (s : State) :
    (s.offerNext).shreg = s.shreg := by
  unfold State.offerNext; split <;> rfl
@[simp] theorem State.offerNext_bitidx (s : State) :
    (s.offerNext).bitidx = s.bitidx := by
  unfold State.offerNext; split <;> rfl
@[simp] theorem State.offerNext_cmd (s : State) :
    (s.offerNext).cmd = s.cmd := by
  unfold State.offerNext; split <;> rfl
@[simp] theorem State.offerNext_val (s : State) :
    (s.offerNext).val = s.val := by
  unfold State.offerNext; split <;> rfl
@[simp] theorem State.offerNext_chk (s : State) :
    (s.offerNext).chk = s.chk := by
  unfold State.offerNext; split <;> rfl
@[simp] theorem State.offerNext_attempt (s : State) :
    (s.offerNext).attempt = s.attempt := by
  unfold State.offerNext; split <;> rfl
@[simp] theorem State.offerNext_ackbit (s : State) :
    (s.offerNext).ackbit = s.ackbit := by
  unfold State.offerNext; split <;> rfl
@[simp] theorem State.offerNext_ok (s : State) : (s.offerNext).ok = s.ok := by
  unfold State.offerNext; split <;> rfl
@[simp] theorem State.offerNext_pos (s : State) :
    (s.offerNext).pos = s.pos := by
  unfold State.offerNext; split <;> rfl
@[simp] theorem State.offerNext_dcnt (s : State) :
    (s.offerNext).dcnt = s.dcnt := by
  unfold State.offerNext; split <;> rfl
@[simp] theorem State.offerNext_rtrace (s : State) :
    (s.offerNext).rtrace = s.rtrace := by
  unfold State.offerNext; split <;> rfl
@[simp] theorem State.offerNext_schedule (s : State) :
    (s.offerNext).schedule = s.schedule := by
  unfold State.offerNext; split <;> rfl
@[simp] theorem State.offerNext_draws (s : State) :
    (s.offerNext).draws = s.draws := by
  unfold State.offerNext; split <;> rfl
@[simp] theorem State.offerNext_drawIx (s : State) :
    (s.offerNext).drawIx = s.drawIx := by
  unfold State.offerNext; split <;> rfl
@[simp] theorem State.offerNext_sdaHeld (s : State) :
    (s.offerNext).sdaHeld = s.sdaHeld := by
  unfold State.offerNext; split <;> rfl
@[simp] theorem State.offerNext_freeIx (s : State) :
    (s.offerNext).freeIx = s.freeIx := by
  unfold State.offerNext; split <;> rfl
@[simp] theorem State.offerNext_edgewise (s : State) :
    (s.offerNext).edgewise = s.edgewise := by
  unfold State.offerNext; split <;> rfl
@[simp] theorem State.offerNext_codes (s : State) :
    (s.offerNext).codes = s.codes := by
  unfold State.offerNext; split <;> rfl

@[simp] theorem State.hostMove_sda (s : State) :
    (s.hostMove).sda = s.sda := by
  unfold State.hostMove; split <;> (try split) <;> simp
@[simp] theorem State.hostMove_scl (s : State) :
    (s.hostMove).scl = s.scl := by
  unfold State.hostMove; split <;> (try split) <;> simp
@[simp] theorem State.hostMove_rspPulse (s : State) :
    (s.hostMove).rspPulse = s.rspPulse := by
  unfold State.hostMove; split <;> (try split) <;> simp
@[simp] theorem State.hostMove_rspData (s : State) :
    (s.hostMove).rspData = s.rspData := by
  unfold State.hostMove; split <;> (try split) <;> simp
@[simp] theorem State.hostMove_rspErr (s : State) :
    (s.hostMove).rspErr = s.rspErr := by
  unfold State.hostMove; split <;> (try split) <;> simp
@[simp] theorem State.hostMove_op (s : State) :
    (s.hostMove).op = s.op := by
  unfold State.hostMove; split <;> (try split) <;> simp
@[simp] theorem State.hostMove_arg (s : State) :
    (s.hostMove).arg = s.arg := by
  unfold State.hostMove; split <;> (try split) <;> simp
@[simp] theorem State.hostMove_shreg (s : State) :
    (s.hostMove).shreg = s.shreg := by
  unfold State.hostMove; split <;> (try split) <;> simp
@[simp] theorem State.hostMove_bitidx (s : State) :
    (s.hostMove).bitidx = s.bitidx := by
  unfold State.hostMove; split <;> (try split) <;> simp
@[simp] theorem State.hostMove_cmd (s : State) :
    (s.hostMove).cmd = s.cmd := by
  unfold State.hostMove; split <;> (try split) <;> simp
@[simp] theorem State.hostMove_val (s : State) :
    (s.hostMove).val = s.val := by
  unfold State.hostMove; split <;> (try split) <;> simp
@[simp] theorem State.hostMove_chk (s : State) :
    (s.hostMove).chk = s.chk := by
  unfold State.hostMove; split <;> (try split) <;> simp
@[simp] theorem State.hostMove_attempt (s : State) :
    (s.hostMove).attempt = s.attempt := by
  unfold State.hostMove; split <;> (try split) <;> simp
@[simp] theorem State.hostMove_ackbit (s : State) :
    (s.hostMove).ackbit = s.ackbit := by
  unfold State.hostMove; split <;> (try split) <;> simp
@[simp] theorem State.hostMove_ok (s : State) :
    (s.hostMove).ok = s.ok := by
  unfold State.hostMove; split <;> (try split) <;> simp
@[simp] theorem State.hostMove_pos (s : State) :
    (s.hostMove).pos = s.pos := by
  unfold State.hostMove; split <;> (try split) <;> simp
@[simp] theorem State.hostMove_dcnt (s : State) :
    (s.hostMove).dcnt = s.dcnt := by
  unfold State.hostMove; split <;> (try split) <;> simp
@[simp] theorem State.hostMove_rtrace (s : State) :
    (s.hostMove).rtrace = s.rtrace := by
  unfold State.hostMove; split <;> (try split) <;> simp
@[simp] theorem State.hostMove_draws (s : State) :
    (s.hostMove).draws = s.draws := by
  unfold State.hostMove; split <;> (try split) <;> simp
@[simp] theorem State.hostMove_drawIx (s : State) :
    (s.hostMove).drawIx = s.drawIx := by
  unfold State.hostMove; split <;> (try split) <;> simp
@[simp] theorem State.hostMove_sdaHeld (s : State) :
    (s.hostMove).sdaHeld = s.sdaHeld := by
  unfold State.hostMove; split <;> (try split) <;> simp
@[simp] theorem State.hostMove_freeIx (s : State) :
    (s.hostMove).freeIx = s.freeIx := by
  unfold State.hostMove; split <;> (try split) <;> simp
@[simp] theorem State.hostMove_edgewise (s : State) :
    (s.hostMove).edgewise = s.edgewise := by
  unfold State.hostMove; split <;> (try split) <;> simp
@[simp] theorem State.hostMove_codes (s : State) :
    (s.hostMove).codes = s.codes := by
  unfold State.hostMove; split <;> (try split) <;> simp

/-- A request that stands on the port is held steady (R214). -/
theorem State.offerNext_held (s : State) (h : s.reqValid = true) : s.offerNext = s := by
  unfold State.offerNext; rw [h]

/-- A host with no further request offers none. -/
theorem State.offerNext_none (s : State) (h : s.hostProgram = []) : s.offerNext = s := by
  unfold State.offerNext; split <;> simp_all

/-- What the host's move can do: `rst` is the schedule's, low after its end; and the port and the list of requests are as
before, or the next request was put on the free port. -/
theorem State.hostMove_cases (s : State) :
    s.hostMove = { s with rst := (s.schedule.head?.map HostCycle.rst).getD false, schedule := s.schedule.tail } ∨
    s.hostMove =
      { s with rst := (s.schedule.head?.map HostCycle.rst).getD false, schedule := s.schedule.tail }.offerNext := by
  unfold State.hostMove
  split
  · rename_i h; right; congr 1; simp [h]
  · rename_i c cs h
    split
    · right; simp [h]
    · left; simp [h]

/-- The host's move sets `rst` as the schedule says, low after its end, and uses up one cycle of it (R214; log 5). -/
@[simp] theorem State.hostMove_rst (s : State) :
    (s.hostMove).rst = (s.schedule.head?.map HostCycle.rst).getD false := by
  rcases s.hostMove_cases with h | h <;> rw [h]
  exact State.offerNext_rst _
@[simp] theorem State.hostMove_schedule (s : State) : (s.hostMove).schedule = s.schedule.tail := by
  rcases s.hostMove_cases with h | h <;> rw [h]
  exact State.offerNext_schedule _

/-- A request that stands on the port is held steady by the host's move (R214). -/
theorem State.hostMove_held (s : State) (h : s.reqValid = true) :
    s.hostMove =
      { s with rst := (s.schedule.head?.map HostCycle.rst).getD false, schedule := s.schedule.tail } := by
  rcases s.hostMove_cases with e | e
  · exact e
  · rw [e]; exact State.offerNext_held _ h

/-- A host without a schedule that has nothing to do leaves the state alone. -/
theorem State.hostMove_settled (s : State) (hs : s.schedule = []) (hr : s.rst = false)
    (ho : s.reqValid = true ∨ s.hostProgram = []) : s.hostMove = s := by
  have hd : { s with rst := false } = s := by cases s; simp_all
  unfold State.hostMove
  split
  · rw [hd]; exact ho.elim s.offerNext_held s.offerNext_none
  · rename_i h; rw [hs] at h; cases h

/-! ## Accept -/

@[simp] theorem State.accept_sda (op : BitVec 4) (arg : Byte) (s : State) : (s.accept op arg).sda = s.sda := rfl
@[simp] theorem State.accept_scl (op : BitVec 4) (arg : Byte) (s : State) : (s.accept op arg).scl = s.scl := rfl
@[simp] theorem State.accept_rst (op : BitVec 4) (arg : Byte) (s : State) : (s.accept op arg).rst = s.rst := rfl
@[simp] theorem State.accept_reqValid (op : BitVec 4) (arg : Byte) (s : State) :
    (s.accept op arg).reqValid = false := rfl
@[simp] theorem State.accept_reqOp (op : BitVec 4) (arg : Byte) (s : State) : (s.accept op arg).reqOp = s.reqOp := rfl
@[simp] theorem State.accept_reqArg (op : BitVec 4) (arg : Byte) (s : State) :
    (s.accept op arg).reqArg = s.reqArg := rfl
@[simp] theorem State.accept_rspPulse (op : BitVec 4) (arg : Byte) (s : State) :
    (s.accept op arg).rspPulse = false := rfl
@[simp] theorem State.accept_rspData (op : BitVec 4) (arg : Byte) (s : State) :
    (s.accept op arg).rspData = s.rspData := rfl
@[simp] theorem State.accept_rspErr (op : BitVec 4) (arg : Byte) (s : State) :
    (s.accept op arg).rspErr = s.rspErr := rfl
@[simp] theorem State.accept_op (op : BitVec 4) (arg : Byte) (s : State) : (s.accept op arg).op = op := rfl
@[simp] theorem State.accept_arg (op : BitVec 4) (arg : Byte) (s : State) : (s.accept op arg).arg = arg := rfl
@[simp] theorem State.accept_shreg (op : BitVec 4) (arg : Byte) (s : State) : (s.accept op arg).shreg = s.shreg := rfl
@[simp] theorem State.accept_bitidx (op : BitVec 4) (arg : Byte) (s : State) :
    (s.accept op arg).bitidx = s.bitidx := rfl
@[simp] theorem State.accept_cmd (op : BitVec 4) (arg : Byte) (s : State) : (s.accept op arg).cmd = s.cmd := rfl
@[simp] theorem State.accept_val (op : BitVec 4) (arg : Byte) (s : State) : (s.accept op arg).val = s.val := rfl
@[simp] theorem State.accept_chk (op : BitVec 4) (arg : Byte) (s : State) : (s.accept op arg).chk = s.chk := rfl
@[simp] theorem State.accept_attempt (op : BitVec 4) (arg : Byte) (s : State) :
    (s.accept op arg).attempt = s.attempt := rfl
@[simp] theorem State.accept_ackbit (op : BitVec 4) (arg : Byte) (s : State) :
    (s.accept op arg).ackbit = s.ackbit := rfl
@[simp] theorem State.accept_ok (op : BitVec 4) (arg : Byte) (s : State) : (s.accept op arg).ok = s.ok := rfl
@[simp] theorem State.accept_pos (op : BitVec 4) (arg : Byte) (s : State) : (s.accept op arg).pos = .run .op 0 := rfl
@[simp] theorem State.accept_dcnt (op : BitVec 4) (arg : Byte) (s : State) : (s.accept op arg).dcnt = s.dcnt := rfl
@[simp] theorem State.accept_rtrace (op : BitVec 4) (arg : Byte) (s : State) :
    (s.accept op arg).rtrace = .accept op arg :: s.rtrace := rfl
@[simp] theorem State.accept_hostProgram (op : BitVec 4) (arg : Byte) (s : State) :
    (s.accept op arg).hostProgram = s.hostProgram := rfl
@[simp] theorem State.accept_schedule (op : BitVec 4) (arg : Byte) (s : State) :
    (s.accept op arg).schedule = s.schedule := rfl
@[simp] theorem State.accept_draws (op : BitVec 4) (arg : Byte) (s : State) : (s.accept op arg).draws = s.draws := rfl
@[simp] theorem State.accept_drawIx (op : BitVec 4) (arg : Byte) (s : State) :
    (s.accept op arg).drawIx = s.drawIx := rfl
@[simp] theorem State.accept_sdaHeld (op : BitVec 4) (arg : Byte) (s : State) :
    (s.accept op arg).sdaHeld = s.sdaHeld := rfl
@[simp] theorem State.accept_freeIx (op : BitVec 4) (arg : Byte) (s : State) :
    (s.accept op arg).freeIx = s.freeIx := rfl
@[simp] theorem State.accept_edgewise (op : BitVec 4) (arg : Byte) (s : State) :
    (s.accept op arg).edgewise = s.edgewise := rfl
@[simp] theorem State.accept_codes (op : BitVec 4) (arg : Byte) (s : State) : (s.accept op arg).codes = s.codes := rfl

/-! ## The accepting edge of a request that is run whole -/

@[simp] theorem State.start_sda (op : BitVec 4) (arg : Byte) (s : State) :
    (s.start op arg).sda = s.sda := State.offerNext_sda _
@[simp] theorem State.start_scl (op : BitVec 4) (arg : Byte) (s : State) :
    (s.start op arg).scl = s.scl := State.offerNext_scl _
@[simp] theorem State.start_rst (op : BitVec 4) (arg : Byte) (s : State) :
    (s.start op arg).rst = s.rst := State.offerNext_rst _
@[simp] theorem State.start_rspPulse (op : BitVec 4) (arg : Byte) (s : State) :
    (s.start op arg).rspPulse = false := State.offerNext_rspPulse _
@[simp] theorem State.start_rspData (op : BitVec 4) (arg : Byte) (s : State) :
    (s.start op arg).rspData = s.rspData := State.offerNext_rspData _
@[simp] theorem State.start_rspErr (op : BitVec 4) (arg : Byte) (s : State) :
    (s.start op arg).rspErr = s.rspErr := State.offerNext_rspErr _
@[simp] theorem State.start_op (op : BitVec 4) (arg : Byte) (s : State) :
    (s.start op arg).op = op := State.offerNext_op _
@[simp] theorem State.start_arg (op : BitVec 4) (arg : Byte) (s : State) :
    (s.start op arg).arg = arg := State.offerNext_arg _
@[simp] theorem State.start_shreg (op : BitVec 4) (arg : Byte) (s : State) :
    (s.start op arg).shreg = s.shreg := State.offerNext_shreg _
@[simp] theorem State.start_bitidx (op : BitVec 4) (arg : Byte) (s : State) :
    (s.start op arg).bitidx = s.bitidx := State.offerNext_bitidx _
@[simp] theorem State.start_cmd (op : BitVec 4) (arg : Byte) (s : State) :
    (s.start op arg).cmd = s.cmd := State.offerNext_cmd _
@[simp] theorem State.start_val (op : BitVec 4) (arg : Byte) (s : State) :
    (s.start op arg).val = s.val := State.offerNext_val _
@[simp] theorem State.start_chk (op : BitVec 4) (arg : Byte) (s : State) :
    (s.start op arg).chk = s.chk := State.offerNext_chk _
@[simp] theorem State.start_attempt (op : BitVec 4) (arg : Byte) (s : State) :
    (s.start op arg).attempt = s.attempt := State.offerNext_attempt _
@[simp] theorem State.start_ackbit (op : BitVec 4) (arg : Byte) (s : State) :
    (s.start op arg).ackbit = s.ackbit := State.offerNext_ackbit _
@[simp] theorem State.start_ok (op : BitVec 4) (arg : Byte) (s : State) :
    (s.start op arg).ok = s.ok := State.offerNext_ok _
@[simp] theorem State.start_pos (op : BitVec 4) (arg : Byte) (s : State) :
    (s.start op arg).pos = .run .op 0 := State.offerNext_pos _
@[simp] theorem State.start_dcnt (op : BitVec 4) (arg : Byte) (s : State) :
    (s.start op arg).dcnt = s.dcnt := State.offerNext_dcnt _
@[simp] theorem State.start_rtrace (op : BitVec 4) (arg : Byte) (s : State) :
    (s.start op arg).rtrace = .accept op arg :: s.rtrace := State.offerNext_rtrace _
@[simp] theorem State.start_schedule (op : BitVec 4) (arg : Byte) (s : State) :
    (s.start op arg).schedule = s.schedule := State.offerNext_schedule _
@[simp] theorem State.start_draws (op : BitVec 4) (arg : Byte) (s : State) :
    (s.start op arg).draws = s.draws := State.offerNext_draws _
@[simp] theorem State.start_drawIx (op : BitVec 4) (arg : Byte) (s : State) :
    (s.start op arg).drawIx = s.drawIx := State.offerNext_drawIx _
@[simp] theorem State.start_sdaHeld (op : BitVec 4) (arg : Byte) (s : State) :
    (s.start op arg).sdaHeld = s.sdaHeld := State.offerNext_sdaHeld _
@[simp] theorem State.start_freeIx (op : BitVec 4) (arg : Byte) (s : State) :
    (s.start op arg).freeIx = s.freeIx := State.offerNext_freeIx _
@[simp] theorem State.start_edgewise (op : BitVec 4) (arg : Byte) (s : State) :
    (s.start op arg).edgewise = s.edgewise := State.offerNext_edgewise _
@[simp] theorem State.start_codes (op : BitVec 4) (arg : Byte) (s : State) :
    (s.start op arg).codes = s.codes := State.offerNext_codes _

/-- Taking a request and going on to the next touches the host's fields as `offerNext` does on a free port. -/
theorem State.start_eq (op : BitVec 4) (arg : Byte) (s : State) :
    s.start op arg =
      { { s with reqValid := false }.offerNext with
        op := op, arg := arg, pos := .run .op 0, rspPulse := false, rtrace := .accept op arg :: s.rtrace } := by
  unfold State.start State.accept State.offerNext
  cases s.hostProgram <;> rfl

/-! ## Respond -/

@[simp] theorem State.respond_sda (d : Byte) (e : Bool) (s : State) : (s.respond d e).sda = s.sda := rfl
@[simp] theorem State.respond_scl (d : Byte) (e : Bool) (s : State) : (s.respond d e).scl = s.scl := rfl
@[simp] theorem State.respond_rst (d : Byte) (e : Bool) (s : State) : (s.respond d e).rst = s.rst := rfl
@[simp] theorem State.respond_reqValid (d : Byte) (e : Bool) (s : State) :
    (s.respond d e).reqValid = s.reqValid := rfl
@[simp] theorem State.respond_reqOp (d : Byte) (e : Bool) (s : State) : (s.respond d e).reqOp = s.reqOp := rfl
@[simp] theorem State.respond_reqArg (d : Byte) (e : Bool) (s : State) : (s.respond d e).reqArg = s.reqArg := rfl
@[simp] theorem State.respond_rspPulse (d : Byte) (e : Bool) (s : State) : (s.respond d e).rspPulse = true := rfl
@[simp] theorem State.respond_rspData (d : Byte) (e : Bool) (s : State) : (s.respond d e).rspData = d := rfl
@[simp] theorem State.respond_rspErr (d : Byte) (e : Bool) (s : State) : (s.respond d e).rspErr = e := rfl
@[simp] theorem State.respond_op (d : Byte) (e : Bool) (s : State) : (s.respond d e).op = s.op := rfl
@[simp] theorem State.respond_arg (d : Byte) (e : Bool) (s : State) : (s.respond d e).arg = s.arg := rfl
@[simp] theorem State.respond_shreg (d : Byte) (e : Bool) (s : State) : (s.respond d e).shreg = s.shreg := rfl
@[simp] theorem State.respond_bitidx (d : Byte) (e : Bool) (s : State) : (s.respond d e).bitidx = s.bitidx := rfl
@[simp] theorem State.respond_cmd (d : Byte) (e : Bool) (s : State) : (s.respond d e).cmd = s.cmd := rfl
@[simp] theorem State.respond_val (d : Byte) (e : Bool) (s : State) : (s.respond d e).val = s.val := rfl
@[simp] theorem State.respond_chk (d : Byte) (e : Bool) (s : State) : (s.respond d e).chk = s.chk := rfl
@[simp] theorem State.respond_attempt (d : Byte) (e : Bool) (s : State) : (s.respond d e).attempt = s.attempt := rfl
@[simp] theorem State.respond_ackbit (d : Byte) (e : Bool) (s : State) : (s.respond d e).ackbit = s.ackbit := rfl
@[simp] theorem State.respond_ok (d : Byte) (e : Bool) (s : State) : (s.respond d e).ok = s.ok := rfl
@[simp] theorem State.respond_pos (d : Byte) (e : Bool) (s : State) : (s.respond d e).pos = .idle := rfl
@[simp] theorem State.respond_dcnt (d : Byte) (e : Bool) (s : State) : (s.respond d e).dcnt = s.dcnt := rfl
@[simp] theorem State.respond_rtrace (d : Byte) (e : Bool) (s : State) :
    (s.respond d e).rtrace = .respond d e :: s.rtrace := rfl
@[simp] theorem State.respond_hostProgram (d : Byte) (e : Bool) (s : State) :
    (s.respond d e).hostProgram = s.hostProgram := rfl
@[simp] theorem State.respond_schedule (d : Byte) (e : Bool) (s : State) :
    (s.respond d e).schedule = s.schedule := rfl
@[simp] theorem State.respond_draws (d : Byte) (e : Bool) (s : State) : (s.respond d e).draws = s.draws := rfl
@[simp] theorem State.respond_drawIx (d : Byte) (e : Bool) (s : State) : (s.respond d e).drawIx = s.drawIx := rfl
@[simp] theorem State.respond_sdaHeld (d : Byte) (e : Bool) (s : State) : (s.respond d e).sdaHeld = s.sdaHeld := rfl
@[simp] theorem State.respond_freeIx (d : Byte) (e : Bool) (s : State) : (s.respond d e).freeIx = s.freeIx := rfl
@[simp] theorem State.respond_edgewise (d : Byte) (e : Bool) (s : State) :
    (s.respond d e).edgewise = s.edgewise := rfl
@[simp] theorem State.respond_codes (d : Byte) (e : Bool) (s : State) : (s.respond d e).codes = s.codes := rfl

/-! ## Respond with RSP_DATA kept -/

@[simp] theorem State.respondKept_sda (s : State) : (s.respondKept).sda = s.sda := rfl
@[simp] theorem State.respondKept_scl (s : State) : (s.respondKept).scl = s.scl := rfl
@[simp] theorem State.respondKept_rst (s : State) : (s.respondKept).rst = s.rst := rfl
@[simp] theorem State.respondKept_reqValid (s : State) : (s.respondKept).reqValid = s.reqValid := rfl
@[simp] theorem State.respondKept_reqOp (s : State) : (s.respondKept).reqOp = s.reqOp := rfl
@[simp] theorem State.respondKept_reqArg (s : State) : (s.respondKept).reqArg = s.reqArg := rfl
@[simp] theorem State.respondKept_rspPulse (s : State) : (s.respondKept).rspPulse = true := rfl
@[simp] theorem State.respondKept_rspData (s : State) : (s.respondKept).rspData = s.rspData := rfl
@[simp] theorem State.respondKept_rspErr (s : State) : (s.respondKept).rspErr = false := rfl
@[simp] theorem State.respondKept_op (s : State) : (s.respondKept).op = s.op := rfl
@[simp] theorem State.respondKept_arg (s : State) : (s.respondKept).arg = s.arg := rfl
@[simp] theorem State.respondKept_shreg (s : State) : (s.respondKept).shreg = s.shreg := rfl
@[simp] theorem State.respondKept_bitidx (s : State) : (s.respondKept).bitidx = s.bitidx := rfl
@[simp] theorem State.respondKept_cmd (s : State) : (s.respondKept).cmd = s.cmd := rfl
@[simp] theorem State.respondKept_val (s : State) : (s.respondKept).val = s.val := rfl
@[simp] theorem State.respondKept_chk (s : State) : (s.respondKept).chk = s.chk := rfl
@[simp] theorem State.respondKept_attempt (s : State) : (s.respondKept).attempt = s.attempt := rfl
@[simp] theorem State.respondKept_ackbit (s : State) : (s.respondKept).ackbit = s.ackbit := rfl
@[simp] theorem State.respondKept_ok (s : State) : (s.respondKept).ok = s.ok := rfl
@[simp] theorem State.respondKept_pos (s : State) : (s.respondKept).pos = .idle := rfl
@[simp] theorem State.respondKept_dcnt (s : State) : (s.respondKept).dcnt = s.dcnt := rfl
@[simp] theorem State.respondKept_rtrace (s : State) :
    (s.respondKept).rtrace = .respond s.rspData false :: s.rtrace := rfl
@[simp] theorem State.respondKept_hostProgram (s : State) : (s.respondKept).hostProgram = s.hostProgram := rfl
@[simp] theorem State.respondKept_schedule (s : State) : (s.respondKept).schedule = s.schedule := rfl
@[simp] theorem State.respondKept_draws (s : State) : (s.respondKept).draws = s.draws := rfl
@[simp] theorem State.respondKept_drawIx (s : State) : (s.respondKept).drawIx = s.drawIx := rfl
@[simp] theorem State.respondKept_sdaHeld (s : State) : (s.respondKept).sdaHeld = s.sdaHeld := rfl
@[simp] theorem State.respondKept_freeIx (s : State) : (s.respondKept).freeIx = s.freeIx := rfl
@[simp] theorem State.respondKept_edgewise (s : State) : (s.respondKept).edgewise = s.edgewise := rfl
@[simp] theorem State.respondKept_codes (s : State) : (s.respondKept).codes = s.codes := rfl

/-! ## An idle edge -/

@[simp] theorem State.idleEdge_sda (s : State) : (s.idleEdge).sda = s.sda := rfl
@[simp] theorem State.idleEdge_scl (s : State) : (s.idleEdge).scl = s.scl := rfl
@[simp] theorem State.idleEdge_rst (s : State) : (s.idleEdge).rst = s.rst := rfl
@[simp] theorem State.idleEdge_reqValid (s : State) : (s.idleEdge).reqValid = s.reqValid := rfl
@[simp] theorem State.idleEdge_reqOp (s : State) : (s.idleEdge).reqOp = s.reqOp := rfl
@[simp] theorem State.idleEdge_reqArg (s : State) : (s.idleEdge).reqArg = s.reqArg := rfl
@[simp] theorem State.idleEdge_rspPulse (s : State) : (s.idleEdge).rspPulse = false := rfl
@[simp] theorem State.idleEdge_rspData (s : State) : (s.idleEdge).rspData = s.rspData := rfl
@[simp] theorem State.idleEdge_rspErr (s : State) : (s.idleEdge).rspErr = s.rspErr := rfl
@[simp] theorem State.idleEdge_op (s : State) : (s.idleEdge).op = s.op := rfl
@[simp] theorem State.idleEdge_arg (s : State) : (s.idleEdge).arg = s.arg := rfl
@[simp] theorem State.idleEdge_shreg (s : State) : (s.idleEdge).shreg = s.shreg := rfl
@[simp] theorem State.idleEdge_bitidx (s : State) : (s.idleEdge).bitidx = s.bitidx := rfl
@[simp] theorem State.idleEdge_cmd (s : State) : (s.idleEdge).cmd = s.cmd := rfl
@[simp] theorem State.idleEdge_val (s : State) : (s.idleEdge).val = s.val := rfl
@[simp] theorem State.idleEdge_chk (s : State) : (s.idleEdge).chk = s.chk := rfl
@[simp] theorem State.idleEdge_attempt (s : State) : (s.idleEdge).attempt = s.attempt := rfl
@[simp] theorem State.idleEdge_ackbit (s : State) : (s.idleEdge).ackbit = s.ackbit := rfl
@[simp] theorem State.idleEdge_ok (s : State) : (s.idleEdge).ok = s.ok := rfl
@[simp] theorem State.idleEdge_pos (s : State) : (s.idleEdge).pos = s.pos := rfl
@[simp] theorem State.idleEdge_dcnt (s : State) : (s.idleEdge).dcnt = s.dcnt := rfl
@[simp] theorem State.idleEdge_rtrace (s : State) : (s.idleEdge).rtrace = s.rtrace := rfl
@[simp] theorem State.idleEdge_hostProgram (s : State) : (s.idleEdge).hostProgram = s.hostProgram := rfl
@[simp] theorem State.idleEdge_schedule (s : State) : (s.idleEdge).schedule = s.schedule := rfl
@[simp] theorem State.idleEdge_draws (s : State) : (s.idleEdge).draws = s.draws := rfl
@[simp] theorem State.idleEdge_drawIx (s : State) : (s.idleEdge).drawIx = s.drawIx := rfl
@[simp] theorem State.idleEdge_sdaHeld (s : State) : (s.idleEdge).sdaHeld = s.sdaHeld := rfl
@[simp] theorem State.idleEdge_freeIx (s : State) : (s.idleEdge).freeIx = s.freeIx := rfl
@[simp] theorem State.idleEdge_edgewise (s : State) : (s.idleEdge).edgewise = s.edgewise := rfl
@[simp] theorem State.idleEdge_codes (s : State) : (s.idleEdge).codes = s.codes := rfl

/-! ## A Sample -/

@[simp] theorem State.sampleSda_sda (s : State) : (s.sampleSda).sda = s.sda := rfl
@[simp] theorem State.sampleSda_scl (s : State) : (s.sampleSda).scl = s.scl := rfl
@[simp] theorem State.sampleSda_rst (s : State) : (s.sampleSda).rst = s.rst := rfl
@[simp] theorem State.sampleSda_reqValid (s : State) : (s.sampleSda).reqValid = s.reqValid := rfl
@[simp] theorem State.sampleSda_reqOp (s : State) : (s.sampleSda).reqOp = s.reqOp := rfl
@[simp] theorem State.sampleSda_reqArg (s : State) : (s.sampleSda).reqArg = s.reqArg := rfl
@[simp] theorem State.sampleSda_rspPulse (s : State) : (s.sampleSda).rspPulse = s.rspPulse := rfl
@[simp] theorem State.sampleSda_rspData (s : State) : (s.sampleSda).rspData = s.rspData := rfl
@[simp] theorem State.sampleSda_rspErr (s : State) : (s.sampleSda).rspErr = s.rspErr := rfl
@[simp] theorem State.sampleSda_op (s : State) : (s.sampleSda).op = s.op := rfl
@[simp] theorem State.sampleSda_arg (s : State) : (s.sampleSda).arg = s.arg := rfl
@[simp] theorem State.sampleSda_shreg (s : State) : (s.sampleSda).shreg = s.shreg := rfl
@[simp] theorem State.sampleSda_bitidx (s : State) : (s.sampleSda).bitidx = s.bitidx := rfl
@[simp] theorem State.sampleSda_cmd (s : State) : (s.sampleSda).cmd = s.cmd := rfl
@[simp] theorem State.sampleSda_val (s : State) : (s.sampleSda).val = s.val := rfl
@[simp] theorem State.sampleSda_chk (s : State) : (s.sampleSda).chk = s.chk := rfl
@[simp] theorem State.sampleSda_attempt (s : State) : (s.sampleSda).attempt = s.attempt := rfl
@[simp] theorem State.sampleSda_ackbit (s : State) : (s.sampleSda).ackbit = s.ackbit := rfl
@[simp] theorem State.sampleSda_ok (s : State) : (s.sampleSda).ok = s.ok := rfl
@[simp] theorem State.sampleSda_pos (s : State) : (s.sampleSda).pos = s.pos := rfl
@[simp] theorem State.sampleSda_dcnt (s : State) : (s.sampleSda).dcnt = s.dcnt := rfl
@[simp] theorem State.sampleSda_rtrace (s : State) : (s.sampleSda).rtrace = .sample .sda s.lvlSda :: s.rtrace := rfl
@[simp] theorem State.sampleSda_hostProgram (s : State) : (s.sampleSda).hostProgram = s.hostProgram := rfl
@[simp] theorem State.sampleSda_schedule (s : State) : (s.sampleSda).schedule = s.schedule := rfl
@[simp] theorem State.sampleSda_draws (s : State) : (s.sampleSda).draws = s.draws.tail := rfl
@[simp] theorem State.sampleSda_drawIx (s : State) : (s.sampleSda).drawIx = s.drawIx + 1 := rfl
@[simp] theorem State.sampleSda_sdaHeld (s : State) : (s.sampleSda).sdaHeld = s.sdaHeld := rfl
@[simp] theorem State.sampleSda_freeIx (s : State) : (s.sampleSda).freeIx = s.freeIx := rfl
@[simp] theorem State.sampleSda_edgewise (s : State) : (s.sampleSda).edgewise = s.edgewise := rfl
@[simp] theorem State.sampleSda_codes (s : State) : (s.sampleSda).codes = s.codes := rfl

/-! ## The engine's entry -/

@[simp] theorem enterEngine_sda (s : State) : (enterEngine s).sda = s.sda := rfl
@[simp] theorem enterEngine_scl (s : State) : (enterEngine s).scl = s.scl := rfl
@[simp] theorem enterEngine_rst (s : State) : (enterEngine s).rst = s.rst := rfl
@[simp] theorem enterEngine_reqValid (s : State) : (enterEngine s).reqValid = s.reqValid := rfl
@[simp] theorem enterEngine_reqOp (s : State) : (enterEngine s).reqOp = s.reqOp := rfl
@[simp] theorem enterEngine_reqArg (s : State) : (enterEngine s).reqArg = s.reqArg := rfl
@[simp] theorem enterEngine_rspPulse (s : State) : (enterEngine s).rspPulse = s.rspPulse := rfl
@[simp] theorem enterEngine_rspData (s : State) : (enterEngine s).rspData = s.rspData := rfl
@[simp] theorem enterEngine_rspErr (s : State) : (enterEngine s).rspErr = s.rspErr := rfl
@[simp] theorem enterEngine_op (s : State) : (enterEngine s).op = s.op := rfl
@[simp] theorem enterEngine_arg (s : State) : (enterEngine s).arg = s.arg := rfl
@[simp] theorem enterEngine_shreg (s : State) : (enterEngine s).shreg = s.shreg := rfl
@[simp] theorem enterEngine_bitidx (s : State) : (enterEngine s).bitidx = s.bitidx := rfl
@[simp] theorem enterEngine_cmd (s : State) : (enterEngine s).cmd = s.arg := rfl
@[simp] theorem enterEngine_val (s : State) : (enterEngine s).val = Config.sentinel := rfl
@[simp] theorem enterEngine_chk (s : State) : (enterEngine s).chk = s.chk := rfl
@[simp] theorem enterEngine_attempt (s : State) : (enterEngine s).attempt = 0#2 := rfl
@[simp] theorem enterEngine_ackbit (s : State) : (enterEngine s).ackbit = s.ackbit := rfl
@[simp] theorem enterEngine_ok (s : State) : (enterEngine s).ok = false := rfl
@[simp] theorem enterEngine_pos (s : State) : (enterEngine s).pos = s.pos := rfl
@[simp] theorem enterEngine_dcnt (s : State) : (enterEngine s).dcnt = s.dcnt := rfl
@[simp] theorem enterEngine_rtrace (s : State) : (enterEngine s).rtrace = s.rtrace := rfl
@[simp] theorem enterEngine_hostProgram (s : State) : (enterEngine s).hostProgram = s.hostProgram := rfl
@[simp] theorem enterEngine_schedule (s : State) : (enterEngine s).schedule = s.schedule := rfl
@[simp] theorem enterEngine_draws (s : State) : (enterEngine s).draws = s.draws := rfl
@[simp] theorem enterEngine_drawIx (s : State) : (enterEngine s).drawIx = s.drawIx := rfl
@[simp] theorem enterEngine_sdaHeld (s : State) : (enterEngine s).sdaHeld = s.sdaHeld := rfl
@[simp] theorem enterEngine_freeIx (s : State) : (enterEngine s).freeIx = s.freeIx := rfl
@[simp] theorem enterEngine_edgewise (s : State) : (enterEngine s).edgewise = s.edgewise := rfl
@[simp] theorem enterEngine_codes (s : State) : (enterEngine s).codes = s.codes := rfl

/-! ## The attempt counter -/

@[simp] theorem countAttempt_sda (s : State) : (countAttempt s).sda = s.sda := rfl
@[simp] theorem countAttempt_scl (s : State) : (countAttempt s).scl = s.scl := rfl
@[simp] theorem countAttempt_rst (s : State) : (countAttempt s).rst = s.rst := rfl
@[simp] theorem countAttempt_reqValid (s : State) : (countAttempt s).reqValid = s.reqValid := rfl
@[simp] theorem countAttempt_reqOp (s : State) : (countAttempt s).reqOp = s.reqOp := rfl
@[simp] theorem countAttempt_reqArg (s : State) : (countAttempt s).reqArg = s.reqArg := rfl
@[simp] theorem countAttempt_rspPulse (s : State) : (countAttempt s).rspPulse = s.rspPulse := rfl
@[simp] theorem countAttempt_rspData (s : State) : (countAttempt s).rspData = s.rspData := rfl
@[simp] theorem countAttempt_rspErr (s : State) : (countAttempt s).rspErr = s.rspErr := rfl
@[simp] theorem countAttempt_op (s : State) : (countAttempt s).op = s.op := rfl
@[simp] theorem countAttempt_arg (s : State) : (countAttempt s).arg = s.arg := rfl
@[simp] theorem countAttempt_shreg (s : State) : (countAttempt s).shreg = s.shreg := rfl
@[simp] theorem countAttempt_bitidx (s : State) : (countAttempt s).bitidx = s.bitidx := rfl
@[simp] theorem countAttempt_cmd (s : State) : (countAttempt s).cmd = s.cmd := rfl
@[simp] theorem countAttempt_val (s : State) : (countAttempt s).val = s.val := rfl
@[simp] theorem countAttempt_chk (s : State) : (countAttempt s).chk = s.chk := rfl
@[simp] theorem countAttempt_attempt (s : State) : (countAttempt s).attempt = s.attempt + 1#2 := rfl
@[simp] theorem countAttempt_ackbit (s : State) : (countAttempt s).ackbit = s.ackbit := rfl
@[simp] theorem countAttempt_ok (s : State) : (countAttempt s).ok = s.ok := rfl
@[simp] theorem countAttempt_pos (s : State) : (countAttempt s).pos = s.pos := rfl
@[simp] theorem countAttempt_dcnt (s : State) : (countAttempt s).dcnt = s.dcnt := rfl
@[simp] theorem countAttempt_rtrace (s : State) : (countAttempt s).rtrace = s.rtrace := rfl
@[simp] theorem countAttempt_hostProgram (s : State) : (countAttempt s).hostProgram = s.hostProgram := rfl
@[simp] theorem countAttempt_schedule (s : State) : (countAttempt s).schedule = s.schedule := rfl
@[simp] theorem countAttempt_draws (s : State) : (countAttempt s).draws = s.draws := rfl
@[simp] theorem countAttempt_drawIx (s : State) : (countAttempt s).drawIx = s.drawIx := rfl
@[simp] theorem countAttempt_sdaHeld (s : State) : (countAttempt s).sdaHeld = s.sdaHeld := rfl
@[simp] theorem countAttempt_freeIx (s : State) : (countAttempt s).freeIx = s.freeIx := rfl
@[simp] theorem countAttempt_edgewise (s : State) : (countAttempt s).edgewise = s.edgewise := rfl
@[simp] theorem countAttempt_codes (s : State) : (countAttempt s).codes = s.codes := rfl

/-! ## OK cleared -/

@[simp] theorem clearOk_sda (s : State) : (clearOk s).sda = s.sda := rfl
@[simp] theorem clearOk_scl (s : State) : (clearOk s).scl = s.scl := rfl
@[simp] theorem clearOk_rst (s : State) : (clearOk s).rst = s.rst := rfl
@[simp] theorem clearOk_reqValid (s : State) : (clearOk s).reqValid = s.reqValid := rfl
@[simp] theorem clearOk_reqOp (s : State) : (clearOk s).reqOp = s.reqOp := rfl
@[simp] theorem clearOk_reqArg (s : State) : (clearOk s).reqArg = s.reqArg := rfl
@[simp] theorem clearOk_rspPulse (s : State) : (clearOk s).rspPulse = s.rspPulse := rfl
@[simp] theorem clearOk_rspData (s : State) : (clearOk s).rspData = s.rspData := rfl
@[simp] theorem clearOk_rspErr (s : State) : (clearOk s).rspErr = s.rspErr := rfl
@[simp] theorem clearOk_op (s : State) : (clearOk s).op = s.op := rfl
@[simp] theorem clearOk_arg (s : State) : (clearOk s).arg = s.arg := rfl
@[simp] theorem clearOk_shreg (s : State) : (clearOk s).shreg = s.shreg := rfl
@[simp] theorem clearOk_bitidx (s : State) : (clearOk s).bitidx = s.bitidx := rfl
@[simp] theorem clearOk_cmd (s : State) : (clearOk s).cmd = s.cmd := rfl
@[simp] theorem clearOk_val (s : State) : (clearOk s).val = s.val := rfl
@[simp] theorem clearOk_chk (s : State) : (clearOk s).chk = s.chk := rfl
@[simp] theorem clearOk_attempt (s : State) : (clearOk s).attempt = s.attempt := rfl
@[simp] theorem clearOk_ackbit (s : State) : (clearOk s).ackbit = s.ackbit := rfl
@[simp] theorem clearOk_ok (s : State) : (clearOk s).ok = false := rfl
@[simp] theorem clearOk_pos (s : State) : (clearOk s).pos = s.pos := rfl
@[simp] theorem clearOk_dcnt (s : State) : (clearOk s).dcnt = s.dcnt := rfl
@[simp] theorem clearOk_rtrace (s : State) : (clearOk s).rtrace = s.rtrace := rfl
@[simp] theorem clearOk_hostProgram (s : State) : (clearOk s).hostProgram = s.hostProgram := rfl
@[simp] theorem clearOk_schedule (s : State) : (clearOk s).schedule = s.schedule := rfl
@[simp] theorem clearOk_draws (s : State) : (clearOk s).draws = s.draws := rfl
@[simp] theorem clearOk_drawIx (s : State) : (clearOk s).drawIx = s.drawIx := rfl
@[simp] theorem clearOk_sdaHeld (s : State) : (clearOk s).sdaHeld = s.sdaHeld := rfl
@[simp] theorem clearOk_freeIx (s : State) : (clearOk s).freeIx = s.freeIx := rfl
@[simp] theorem clearOk_edgewise (s : State) : (clearOk s).edgewise = s.edgewise := rfl
@[simp] theorem clearOk_codes (s : State) : (clearOk s).codes = s.codes := rfl

/-! ## A step of a phase -/

@[simp] theorem State.atStep_sda (ph : Phase) (k : Nat) (s : State) : (s.atStep ph k).sda = s.sda := rfl
@[simp] theorem State.atStep_scl (ph : Phase) (k : Nat) (s : State) : (s.atStep ph k).scl = s.scl := rfl
@[simp] theorem State.atStep_rst (ph : Phase) (k : Nat) (s : State) : (s.atStep ph k).rst = s.rst := rfl
@[simp] theorem State.atStep_reqValid (ph : Phase) (k : Nat) (s : State) :
    (s.atStep ph k).reqValid = s.reqValid := rfl
@[simp] theorem State.atStep_reqOp (ph : Phase) (k : Nat) (s : State) : (s.atStep ph k).reqOp = s.reqOp := rfl
@[simp] theorem State.atStep_reqArg (ph : Phase) (k : Nat) (s : State) : (s.atStep ph k).reqArg = s.reqArg := rfl
@[simp] theorem State.atStep_rspPulse (ph : Phase) (k : Nat) (s : State) :
    (s.atStep ph k).rspPulse = s.rspPulse := rfl
@[simp] theorem State.atStep_rspData (ph : Phase) (k : Nat) (s : State) : (s.atStep ph k).rspData = s.rspData := rfl
@[simp] theorem State.atStep_rspErr (ph : Phase) (k : Nat) (s : State) : (s.atStep ph k).rspErr = s.rspErr := rfl
@[simp] theorem State.atStep_op (ph : Phase) (k : Nat) (s : State) : (s.atStep ph k).op = s.op := rfl
@[simp] theorem State.atStep_arg (ph : Phase) (k : Nat) (s : State) : (s.atStep ph k).arg = s.arg := rfl
@[simp] theorem State.atStep_shreg (ph : Phase) (k : Nat) (s : State) : (s.atStep ph k).shreg = s.shreg := rfl
@[simp] theorem State.atStep_bitidx (ph : Phase) (k : Nat) (s : State) : (s.atStep ph k).bitidx = s.bitidx := rfl
@[simp] theorem State.atStep_cmd (ph : Phase) (k : Nat) (s : State) : (s.atStep ph k).cmd = s.cmd := rfl
@[simp] theorem State.atStep_val (ph : Phase) (k : Nat) (s : State) : (s.atStep ph k).val = s.val := rfl
@[simp] theorem State.atStep_chk (ph : Phase) (k : Nat) (s : State) : (s.atStep ph k).chk = s.chk := rfl
@[simp] theorem State.atStep_attempt (ph : Phase) (k : Nat) (s : State) : (s.atStep ph k).attempt = s.attempt := rfl
@[simp] theorem State.atStep_ackbit (ph : Phase) (k : Nat) (s : State) : (s.atStep ph k).ackbit = s.ackbit := rfl
@[simp] theorem State.atStep_ok (ph : Phase) (k : Nat) (s : State) : (s.atStep ph k).ok = s.ok := rfl
@[simp] theorem State.atStep_pos (ph : Phase) (k : Nat) (s : State) : (s.atStep ph k).pos = .run ph k := rfl
@[simp] theorem State.atStep_dcnt (ph : Phase) (k : Nat) (s : State) : (s.atStep ph k).dcnt = s.dcnt := rfl
@[simp] theorem State.atStep_rtrace (ph : Phase) (k : Nat) (s : State) : (s.atStep ph k).rtrace = s.rtrace := rfl
@[simp] theorem State.atStep_hostProgram (ph : Phase) (k : Nat) (s : State) :
    (s.atStep ph k).hostProgram = s.hostProgram := rfl
@[simp] theorem State.atStep_schedule (ph : Phase) (k : Nat) (s : State) :
    (s.atStep ph k).schedule = s.schedule := rfl
@[simp] theorem State.atStep_draws (ph : Phase) (k : Nat) (s : State) : (s.atStep ph k).draws = s.draws := rfl
@[simp] theorem State.atStep_drawIx (ph : Phase) (k : Nat) (s : State) : (s.atStep ph k).drawIx = s.drawIx := rfl
@[simp] theorem State.atStep_sdaHeld (ph : Phase) (k : Nat) (s : State) : (s.atStep ph k).sdaHeld = s.sdaHeld := rfl
@[simp] theorem State.atStep_freeIx (ph : Phase) (k : Nat) (s : State) : (s.atStep ph k).freeIx = s.freeIx := rfl
@[simp] theorem State.atStep_edgewise (ph : Phase) (k : Nat) (s : State) :
    (s.atStep ph k).edgewise = s.edgewise := rfl
@[simp] theorem State.atStep_codes (ph : Phase) (k : Nat) (s : State) : (s.atStep ph k).codes = s.codes := rfl

/-! ## The checksum check writes VAL and OK alone -/

@[simp] theorem validate_sda (s : State) : (validate s).sda = s.sda := rfl
@[simp] theorem validate_scl (s : State) : (validate s).scl = s.scl := rfl
@[simp] theorem validate_rst (s : State) : (validate s).rst = s.rst := rfl
@[simp] theorem validate_reqValid (s : State) : (validate s).reqValid = s.reqValid := rfl
@[simp] theorem validate_reqOp (s : State) : (validate s).reqOp = s.reqOp := rfl
@[simp] theorem validate_reqArg (s : State) : (validate s).reqArg = s.reqArg := rfl
@[simp] theorem validate_rspPulse (s : State) : (validate s).rspPulse = s.rspPulse := rfl
@[simp] theorem validate_rspData (s : State) : (validate s).rspData = s.rspData := rfl
@[simp] theorem validate_rspErr (s : State) : (validate s).rspErr = s.rspErr := rfl
@[simp] theorem validate_op (s : State) : (validate s).op = s.op := rfl
@[simp] theorem validate_arg (s : State) : (validate s).arg = s.arg := rfl
@[simp] theorem validate_shreg (s : State) : (validate s).shreg = s.shreg := rfl
@[simp] theorem validate_bitidx (s : State) : (validate s).bitidx = s.bitidx := rfl
@[simp] theorem validate_cmd (s : State) : (validate s).cmd = s.cmd := rfl
@[simp] theorem validate_chk (s : State) : (validate s).chk = s.chk := rfl
@[simp] theorem validate_attempt (s : State) : (validate s).attempt = s.attempt := rfl
@[simp] theorem validate_ackbit (s : State) : (validate s).ackbit = s.ackbit := rfl
@[simp] theorem validate_pos (s : State) : (validate s).pos = s.pos := rfl
@[simp] theorem validate_dcnt (s : State) : (validate s).dcnt = s.dcnt := rfl
@[simp] theorem validate_rtrace (s : State) : (validate s).rtrace = s.rtrace := rfl
@[simp] theorem validate_hostProgram (s : State) : (validate s).hostProgram = s.hostProgram := rfl
@[simp] theorem validate_schedule (s : State) : (validate s).schedule = s.schedule := rfl
@[simp] theorem validate_draws (s : State) : (validate s).draws = s.draws := rfl
@[simp] theorem validate_drawIx (s : State) : (validate s).drawIx = s.drawIx := rfl
@[simp] theorem validate_sdaHeld (s : State) : (validate s).sdaHeld = s.sdaHeld := rfl
@[simp] theorem validate_freeIx (s : State) : (validate s).freeIx = s.freeIx := rfl
@[simp] theorem validate_edgewise (s : State) : (validate s).edgewise = s.edgewise := rfl
@[simp] theorem validate_codes (s : State) : (validate s).codes = s.codes := rfl
@[simp] theorem validate_ok (s : State) : (validate s).ok = checksumMatches s.val s.cmd s.chk := rfl
@[simp] theorem validate_val (s : State) :
    (validate s).val = if checksumMatches s.val s.cmd s.chk then s.val else Config.sentinel := rfl

/-! ## A reset edge leaves the inputs and the environment alone -/

@[simp] theorem State.takeReset_sda (s : State) : (s.takeReset).sda = .d1 := rfl
@[simp] theorem State.takeReset_scl (s : State) : (s.takeReset).scl = .d1 := rfl
@[simp] theorem State.takeReset_rst (s : State) : (s.takeReset).rst = s.rst := rfl
@[simp] theorem State.takeReset_rspPulse (s : State) : (s.takeReset).rspPulse = false := rfl
@[simp] theorem State.takeReset_pos (s : State) : (s.takeReset).pos = .idle := rfl
@[simp] theorem State.takeReset_dcnt (s : State) : (s.takeReset).dcnt = 0 := rfl
@[simp] theorem State.takeReset_rtrace (s : State) : (s.takeReset).rtrace = [] := rfl
@[simp] theorem State.takeReset_freeIx (s : State) : (s.takeReset).freeIx = s.freeIx + 12 := rfl
@[simp] theorem State.takeReset_reqValid (s : State) : (s.takeReset).reqValid = s.reqValid := rfl
@[simp] theorem State.takeReset_reqOp (s : State) : (s.takeReset).reqOp = s.reqOp := rfl
@[simp] theorem State.takeReset_reqArg (s : State) : (s.takeReset).reqArg = s.reqArg := rfl
@[simp] theorem State.takeReset_hostProgram (s : State) : (s.takeReset).hostProgram = s.hostProgram := rfl
@[simp] theorem State.takeReset_draws (s : State) : (s.takeReset).draws = s.draws := rfl
@[simp] theorem State.takeReset_drawIx (s : State) : (s.takeReset).drawIx = s.drawIx := rfl
@[simp] theorem State.takeReset_sdaHeld (s : State) : (s.takeReset).sdaHeld = s.sdaHeld := rfl
@[simp] theorem State.takeReset_edgewise (s : State) : (s.takeReset).edgewise = s.edgewise := rfl
@[simp] theorem State.takeReset_schedule (s : State) : (s.takeReset).schedule = s.schedule := rfl
@[simp] theorem State.takeReset_codes (s : State) : (s.takeReset).codes = s.codes := rfl

/-! ## The derived signals of the host port -/

@[simp] theorem State.busy_accept (op : BitVec 4) (arg : Byte) (s : State) : (s.accept op arg).busy = true := rfl
@[simp] theorem State.busy_respond (d : Byte) (e : Bool) (s : State) : (s.respond d e).busy = false := rfl
@[simp] theorem State.busy_respondKept (s : State) : s.respondKept.busy = false := rfl
@[simp] theorem State.busy_takeReset (s : State) : s.takeReset.busy = false := rfl
@[simp] theorem State.busy_atStep (ph : Phase) (k : Nat) (s : State) : (s.atStep ph k).busy = true := rfl

@[simp] theorem State.rspValid_accept (op : BitVec 4) (arg : Byte) (s : State) :
    (s.accept op arg).rspValid = false := rfl
@[simp] theorem State.busy_start (op : BitVec 4) (arg : Byte) (s : State) : (s.start op arg).busy = true := by
  simp [State.busy]
@[simp] theorem State.busy_hostMove (s : State) : s.hostMove.busy = s.busy := by simp [State.busy]
@[simp] theorem State.rspValid_respond (d : Byte) (e : Bool) (s : State) : (s.respond d e).rspValid = !s.rst := rfl
@[simp] theorem State.rspValid_respondKept (s : State) : s.respondKept.rspValid = !s.rst := rfl
@[simp] theorem State.rspValid_idleEdge (s : State) : s.idleEdge.rspValid = false := rfl
@[simp] theorem State.rspValid_takeReset (s : State) : s.takeReset.rspValid = false := rfl

/-- While `rst = 1` the core shows neither ready nor a response (R230). -/
theorem State.port_in_reset (s : State) (h : s.rst = true) : s.reqReady = false ∧ s.rspValid = false := by
  simp [State.reqReady, State.rspValid, h]

/-- BUSY is 0 exactly in the position IDLE (R27, R32). -/
theorem State.busy_eq_false_iff (s : State) : s.busy = false ↔ s.pos = .idle := by
  unfold State.busy; cases s.pos <;> simp

/-- The core is ready exactly when it is idle and `rst` is low (R25, R230). -/
theorem State.reqReady_iff (s : State) : s.reqReady = true ↔ s.pos = .idle ∧ s.rst = false := by
  unfold State.reqReady
  rw [Bool.and_eq_true, Bool.not_eq_true', Bool.not_eq_true', State.busy_eq_false_iff]

end Sys2Proof.Machine
end

