-- ==== Sys2Proof/Laws/Exec.lean ====
section
/-! SUPPORT. Every meaning is one request: its op code, its argument byte, what it does between Accept and Respond. The
lemmas here say once what `exec` can answer. -/

namespace Sys2Proof.Machine

/-- The op code with which an instruction is accepted (R72; a command byte's is READ_A_BYTE's, R50). -/
def opCodeOf : Instr → BitVec 4
  | .delay _ => 0x1#4
  | .busStart _ => 0x2#4
  | .busStop _ => 0x3#4
  | .sendByte _ => 0x4#4
  | .readByte _ => 0x5#4
  | .checkAck _ => 0x6#4
  | .sendAck _ => 0x7#4
  | .sendNak _ => 0x8#4
  | .readAByte _ => 0x9#4
  | .reserved0 _ => 0x0#4
  | .reservedA _ => 0xA#4
  | .reservedB _ => 0xB#4
  | .reservedC _ => 0xC#4
  | .reservedD _ => 0xD#4
  | .reservedE _ => 0xE#4
  | .reservedF _ => 0xF#4
  | .cmdTypeLb => 0x9#4
  | .cmdTypeHb => 0x9#4
  | .cmdParams => 0x9#4
  | .cmdStatus => 0x9#4
  | .cmdHumLb => 0x9#4
  | .cmdHumHb => 0x9#4
  | .cmdTempLb => 0x9#4
  | .cmdTempHb => 0x9#4
  | .cmdPresLb => 0x9#4
  | .cmdPresHb => 0x9#4
  | .cmdCo2Lb => 0x9#4
  | .cmdCo2Hb => 0x9#4

/-- The argument byte with which an instruction is accepted (R71), a command byte's at the given codes (R80). -/
def argByteOf (codes : CommandCodes) : Instr → Byte
  | .delay a => a
  | .busStart a => a
  | .busStop a => a
  | .sendByte a => a
  | .readByte a => a
  | .checkAck a => a
  | .sendAck a => a
  | .sendNak a => a
  | .readAByte a => a
  | .reserved0 a => a
  | .reservedA a => a
  | .reservedB a => a
  | .reservedC a => a
  | .reservedD a => a
  | .reservedE a => a
  | .reservedF a => a
  | .cmdTypeLb => codes.cmdTypeLb
  | .cmdTypeHb => codes.cmdTypeHb
  | .cmdParams => codes.cmdParams
  | .cmdStatus => codes.cmdStatus
  | .cmdHumLb => codes.cmdHumLb
  | .cmdHumHb => codes.cmdHumHb
  | .cmdTempLb => codes.cmdTempLb
  | .cmdTempHb => codes.cmdTempHb
  | .cmdPresLb => codes.cmdPresLb
  | .cmdPresHb => codes.cmdPresHb
  | .cmdCo2Lb => codes.cmdCo2Lb
  | .cmdCo2Hb => codes.cmdCo2Hb

/-- What an instruction does from its accepting edge to its Respond. -/
def bodyOf : Instr → State → State
  | .delay _ => fun s => (runActs (busDelay (delayUnits s.arg)) s).respondKept
  | .busStart _ => fun s => (runActs busStart s).respondKept
  | .busStop _ => fun s => (runActs busStop s).respondKept
  | .sendByte _ => fun s => (runActs (sendByte s.arg) s).respondKept
  | .readByte _ => fun s => (runActs readByte s).respond (runActs readByte s).shreg false
  | .checkAck _ => fun s => (runActs checkAck s).respond (zext8 (runActs checkAck s).ackbit) false
  | .sendAck _ => fun s => (runActs sendAck s).respondKept
  | .sendNak _ => fun s => (runActs sendNak s).respondKept
  | .readAByte _ => readRegister
  | .reserved0 _ => fun s => s.respond s.rspData true
  | .reservedA _ => fun s => s.respond s.rspData true
  | .reservedB _ => fun s => s.respond s.rspData true
  | .reservedC _ => fun s => s.respond s.rspData true
  | .reservedD _ => fun s => s.respond s.rspData true
  | .reservedE _ => fun s => s.respond s.rspData true
  | .reservedF _ => fun s => s.respond s.rspData true
  | .cmdTypeLb => readRegister
  | .cmdTypeHb => readRegister
  | .cmdParams => readRegister
  | .cmdStatus => readRegister
  | .cmdHumLb => readRegister
  | .cmdHumHb => readRegister
  | .cmdTempLb => readRegister
  | .cmdTempHb => readRegister
  | .cmdPresLb => readRegister
  | .cmdPresHb => readRegister
  | .cmdCo2Lb => readRegister
  | .cmdCo2Hb => readRegister

/-- A request is accepted only while `rst = 0` (R25). -/
theorem rst_of_accepted {i : Instr} {s : State} (h : Accepted i s) : s.rst = false := by
  have hr := h.1
  rw [State.reqReady, Bool.and_eq_true, Bool.not_eq_true'] at hr
  simpa using hr.2

/-- A request that is accepted and meets no contention runs its body. -/
theorem request_accepted (op : BitVec 4) (arg : Byte) (high : Bool) (body : State → State) (s : State)
    (hr : s.reqReady = true) (hc : s.sdaHeld = true → s.sda ≠ .d1 ∧ high = false) :
    request op arg high body s = .next (body (s.start op arg)) := by
  unfold request
  rw [if_pos hr, if_neg]
  cases hh : s.sdaHeld
  · simp
  · obtain ⟨h1, h2⟩ := hc hh
    simp [h1, h2]

/-- A core that is not ready accepts nothing (R25). -/
theorem request_not_ready (op : BitVec 4) (arg : Byte) (high : Bool) (body : State → State) (s : State)
    (hr : s.reqReady = false) : request op arg high body s = .next s := by
  unfold request
  rw [hr]; rfl

/-- Every meaning is the request of its op code and argument byte. -/
theorem exec_eq_request (i : Instr) (s : State) :
    exec i s = request (opCodeOf i) (argByteOf s.codes i) (drivesSdaHigh i) (bodyOf i) s := by
  cases i <;> rfl

/-- An accepted instruction answers the state its body leaves. -/
theorem exec_accepted (i : Instr) (s : State) (h : Accepted i s) :
    exec i s = .next (bodyOf i (s.start (opCodeOf i) (argByteOf s.codes i))) := by
  rw [exec_eq_request]
  exact request_accepted _ _ _ _ _ h.1 h.2

/-- What `exec` can answer with a next state: the core was not ready and nothing happened, or the request was accepted
and its body ran. -/
theorem exec_next_cases (i : Instr) (s t : State) (h : exec i s = .next t) :
    (s.reqReady = false ∧ t = s) ∨
    (Accepted i s ∧ t = bodyOf i (s.start (opCodeOf i) (argByteOf s.codes i))) := by
  rw [exec_eq_request] at h
  unfold request at h
  split at h
  · rename_i hr
    split at h
    · cases h
    · rename_i hc
      refine .inr ⟨⟨hr, fun hh => ?_⟩, by cases h; rfl⟩
      simp only [hh, Bool.true_and, Bool.or_eq_true, not_or, Bool.not_eq_true, beq_eq_false_iff_ne] at hc
      exact ⟨hc.2, hc.1⟩
  · rename_i hr
    exact .inl ⟨by simpa using hr, by cases h; rfl⟩

/-- No meaning ever refuses. -/
theorem exec_not_refused (i : Instr) (s : State) (r : Refusal) : exec i s ≠ .refused r := by
  rw [exec_eq_request]
  unfold request
  split
  · split <;> simp
  · simp

end Sys2Proof.Machine
end

