-- ==== Sys2Proof/Laws/Procedures.lean ====
section
/-! SUPPORT. One closed form per procedure: what running its list of actions leaves, from any state. The event lists are
those Safety.lean writes out from the spec. -/

namespace Sys2Proof.Machine

theorem runActs_append (as bs : List Act) (s : State) : runActs (as ++ bs) s = runActs bs (runActs as s) := by
  induction as generalizing s with
  | nil => rfl
  | cons a as ih => exact ih (a.run s)

/-! ## The register writes between events -/

/-- Register writes touch BITIDX, SHREG, VAL and CHK alone (R120, R124, R152). -/
theorem runWrites_writes (ws : List RegWrite) (s : State) :
    ∃ b sh v c, runWrites ws s = { s with bitidx := b, shreg := sh, val := v, chk := c } := by
  induction ws generalizing s with
  | nil => exact ⟨s.bitidx, s.shreg, s.val, s.chk, rfl⟩
  | cons w ws ih =>
    obtain ⟨b, sh, v, c, h⟩ := ih (w.run s)
    refine ⟨b, sh, v, c, ?_⟩
    rw [runWrites, h]
    cases w <;> rfl

/-! ## The samples seen later -/

/-- After `n` samples the `k`-th one to come is the one that was number `n + k` before (R16). -/
theorem sampleAt_after (s t : State) (n k : Nat) (hh : t.sdaHeld = s.sdaHeld) (hd : t.draws = s.draws.drop n)
    (hi : t.drawIx = s.drawIx + n) : t.sampleAt k = s.sampleAt (n + k) := by
  simp [State.sampleAt, hh, hd, hi, List.getElem?_drop, Nat.add_assoc]

/-- The samples, as a function, after `n` of them were taken. -/
theorem sampleAt_shift (s t : State) (n : Nat) (hh : t.sdaHeld = s.sdaHeld) (hd : t.draws = s.draws.drop n)
    (hi : t.drawIx = s.drawIx + n) : t.sampleAt = fun k => s.sampleAt (n + k) :=
  funext fun k => sampleAt_after s t n k hh hd hi

/-- The samples depend on the environment's fields alone. -/
theorem sampleAt_congr (s t : State) (hh : t.sdaHeld = s.sdaHeld) (hd : t.draws = s.draws)
    (hi : t.drawIx = s.drawIx) : t.sampleAt = s.sampleAt := by
  funext k; simp [State.sampleAt, hh, hd, hi]

theorem byteAt_shift (f : Nat → Level) (n k : Nat) : byteAt (fun j => f (n + j)) k = byteAt f (n + k) := by
  simp only [byteAt, Nat.add_assoc]

theorem readByteEvents_shift (f : Nat → Level) (n k : Nat) :
    readByteEvents (fun j => f (n + j)) k = readByteEvents f (n + k) := by
  simp only [readByteEvents, Nat.add_assoc]

/-! ## The primitives -/

/-- busStart leaves SDA driven low and SCL driven high (R101). -/
theorem runActs_busStart (s : State) :
    runActs busStart s =
      { s with sda := .d0, scl := .d1, dcnt := 0, rtrace := busStartEvents.reverse ++ s.rtrace } := rfl

/-- busStop leaves both lines driven high (R104). -/
theorem runActs_busStop (s : State) :
    runActs busStop s =
      { s with sda := .d1, scl := .d1, dcnt := 0, rtrace := busStopEvents.reverse ++ s.rtrace } := rfl

theorem runActs_sendBit (v : Byte) (i : BitVec 3) (s : State) :
    runActs (sendBit v i) s =
      { s with
        sda := Drive.ofLevel (bitOf v i), scl := .d0, bitidx := i, dcnt := 0
        rtrace := (sendBitEvents (bitOf v i)).reverse ++ s.rtrace } := rfl

/-- sendByte leaves SDA released and SCL driven low (R120). -/
theorem runActs_sendByte (v : Byte) (s : State) :
    runActs (sendByte v) s =
      { s with
        sda := .rel, scl := .d0, bitidx := 0#3, dcnt := 0, rtrace := (sendByteEvents v).reverse ++ s.rtrace } := by
  simp only [sendByte, wireOrder, sendByteEvents, List.flatMap_cons, List.flatMap_nil, runActs_append, runActs_sendBit,
    List.reverse_append, List.append_assoc]
  rfl

/-- checkAck leaves the sampled level in ACKBIT, SDA released and SCL driven low (R128). -/
theorem runActs_checkAck (s : State) :
    runActs checkAck s =
      { s with
        sda := .rel, scl := .d0, ackbit := s.sampleAt 0, dcnt := 0, draws := s.draws.tail, drawIx := s.drawIx + 1
        rtrace := (releasedBitEvents (s.sampleAt 0)).reverse ++ s.rtrace } := rfl

/-- sendACK after register writes: the writes, then both lines left driven low (R130, R152). -/
theorem runActs_sendAckAfter (ws : List RegWrite) (s : State) :
    runActs (sendAckAfter ws) s =
      { runWrites ws s with
        sda := .d0, scl := .d0, dcnt := 0, rtrace := sendAckEvents.reverse ++ (runWrites ws s).rtrace } := rfl

/-- sendACK leaves both lines driven low (R130). -/
theorem runActs_sendAck (s : State) :
    runActs sendAck s =
      { s with sda := .d0, scl := .d0, dcnt := 0, rtrace := sendAckEvents.reverse ++ s.rtrace } := rfl

/-- sendNAK after register writes: the writes, then both lines left driven high (R132, R152). -/
theorem runActs_sendNakAfter (ws : List RegWrite) (s : State) :
    runActs (sendNakAfter ws) s =
      { runWrites ws s with
        sda := .d1, scl := .d1, dcnt := 0, rtrace := sendNakEvents.reverse ++ (runWrites ws s).rtrace } := rfl

/-- sendNAK leaves both lines driven high (R132). -/
theorem runActs_sendNak (s : State) :
    runActs sendNak s =
      { s with sda := .d1, scl := .d1, dcnt := 0, rtrace := sendNakEvents.reverse ++ s.rtrace } := rfl

/-! ## readByte -/

theorem runActs_readBit_first (s : State) :
    runActs (readBit 7#3) s =
      { s with
        sda := .rel, scl := .d0, bitidx := 7#3, shreg := orBit 0x00#8 (s.sampleAt 0) 7#3, dcnt := 0
        draws := s.draws.tail, drawIx := s.drawIx + 1
        rtrace := (releasedBitEvents (s.sampleAt 0)).reverse ++ s.rtrace } := rfl

theorem runActs_readBit_next (i : BitVec 3) (hi : i ≠ 7#3) (s : State) (h : s.sda = .rel) :
    runActs (readBit i) s =
      { s with
        scl := .d0, bitidx := i, shreg := orBit s.shreg (s.sampleAt 0) i, dcnt := 0
        draws := s.draws.tail, drawIx := s.drawIx + 1
        rtrace := (readBitEvents (s.sampleAt 0)).reverse ++ s.rtrace } := by
  obtain ⟨sda⟩ := s
  subst h
  simp only [readBit, if_neg hi]
  rfl

/-- The state inside a readByte that began in `s`, after `n` samples. -/
def readingState (s : State) (n : Nat) (i : BitVec 3) (sh : Byte) (tr : List Event) : State :=
  { s with
    sda := .rel, scl := .d0, bitidx := i, shreg := sh, dcnt := 0, draws := s.draws.drop n, drawIx := s.drawIx + n
    rtrace := tr }

theorem runActs_readBit_reading (s : State) (n : Nat) (i j : BitVec 3) (hi : i ≠ 7#3) (sh : Byte) (tr : List Event) :
    runActs (readBit i) (readingState s n j sh tr) =
      readingState s (n + 1) i (orBit sh (s.sampleAt n) i) ((readBitEvents (s.sampleAt n)).reverse ++ tr) := by
  have hs : (readingState s n j sh tr).sampleAt 0 = s.sampleAt n := sampleAt_after s _ n 0 rfl rfl rfl
  rw [runActs_readBit_next i hi _ rfl, hs]
  simp [readingState, List.tail_drop, Nat.add_assoc]

theorem runActs_readBit_start (s : State) :
    runActs (readBit 7#3) s =
      readingState s 1 7#3 (orBit 0x00#8 (s.sampleAt 0) 7#3)
        ((releasedBitEvents (s.sampleAt 0)).reverse ++ s.rtrace) := by
  rw [runActs_readBit_first, readingState, List.drop_one]

theorem orBit_byte (b7 b6 b5 b4 b3 b2 b1 b0 : Level) :
    orBit (orBit (orBit (orBit (orBit (orBit (orBit (orBit 0x00#8 b7 7#3) b6 6#3) b5 5#3) b4 4#3) b3 3#3) b2 2#3)
      b1 1#3) b0 0#3 =
    BitVec.ofNat 8 (128 * b7.toNat + 64 * b6.toNat + 32 * b5.toNat + 16 * b4.toNat + 8 * b3.toNat + 4 * b2.toNat +
      2 * b1.toNat + b0.toNat) := by
  revert b7 b6 b5 b4 b3 b2 b1 b0; decide

/-- readByte leaves the byte of the next eight samples in SHREG, SDA released and SCL driven low (R124). -/
theorem runActs_readByte (s : State) :
    runActs readByte s =
      { s with
        sda := .rel, scl := .d0, bitidx := 0#3, shreg := byteAt s.sampleAt 0, dcnt := 0
        draws := s.draws.drop 8, drawIx := s.drawIx + 8
        rtrace := (readByteEvents s.sampleAt 0).reverse ++ s.rtrace } := by
  have h : runActs readByte s =
      readingState s 8 0#3 (byteAt s.sampleAt 0) ((readByteEvents s.sampleAt 0).reverse ++ s.rtrace) := by
    simp only [readByte, wireOrder, List.flatMap_cons, List.flatMap_nil, List.append_nil]
    rw [runActs_append, runActs_readBit_start]
    simp only [runActs_append, runActs_readBit_reading _ _ _ _ (by decide : (6#3 : BitVec 3) ≠ 7#3),
      runActs_readBit_reading _ _ _ _ (by decide : (5#3 : BitVec 3) ≠ 7#3),
      runActs_readBit_reading _ _ _ _ (by decide : (4#3 : BitVec 3) ≠ 7#3),
      runActs_readBit_reading _ _ _ _ (by decide : (3#3 : BitVec 3) ≠ 7#3),
      runActs_readBit_reading _ _ _ _ (by decide : (2#3 : BitVec 3) ≠ 7#3),
      runActs_readBit_reading _ _ _ _ (by decide : (1#3 : BitVec 3) ≠ 7#3),
      runActs_readBit_reading _ _ _ _ (by decide : (0#3 : BitVec 3) ≠ 7#3), orBit_byte]
    simp only [byteAt, readByteEvents, List.flatMap_cons, List.flatMap_nil, List.append_nil, List.reverse_append,
      List.append_assoc, Nat.zero_add, Nat.reduceAdd]
  exact h

/-! ## The parts of an attempt -/

/-- The command phase: start, then the command byte (R151). -/
theorem runActs_commandPhase (c : Byte) (s : State) :
    runActs (commandPhase c) s =
      { s with
        sda := .rel, scl := .d0, bitidx := 0#3, dcnt := 0
        rtrace := (busStartEvents ++ sendByteEvents c).reverse ++ s.rtrace } := by
  rw [commandPhase, runActs_append, runActs_busStart, runActs_sendByte, List.reverse_append, List.append_assoc]

/-- The response phase: value byte into VAL, checksum byte into CHK, the bus idle at its end (R152). -/
theorem runActs_responsePhase (s : State) :
    runActs responsePhase s =
      { s with
        sda := .d1, scl := .d1, bitidx := 0#3, shreg := byteAt s.sampleAt 8, val := byteAt s.sampleAt 0
        chk := byteAt s.sampleAt 8, dcnt := 0, draws := s.draws.drop 16, drawIx := s.drawIx + 16
        rtrace :=
          (readByteEvents s.sampleAt 0 ++ sendAckEvents ++ readByteEvents s.sampleAt 8 ++ sendNakEvents ++
            busStopEvents).reverse ++ s.rtrace } := by
  have hv : runActs (sendAckAfter [.latchVal]) (runActs readByte s) =
      { s with
        sda := .d0, scl := .d0, bitidx := 0#3, shreg := byteAt s.sampleAt 0, val := byteAt s.sampleAt 0, dcnt := 0
        draws := s.draws.drop 8, drawIx := s.drawIx + 8
        rtrace := (readByteEvents s.sampleAt 0 ++ sendAckEvents).reverse ++ s.rtrace } := by
    rw [runActs_readByte, runActs_sendAckAfter, List.reverse_append, List.append_assoc]; rfl
  simp only [responsePhase, runActs_append]
  generalize runActs (sendAckAfter [.latchVal]) (runActs readByte s) = t at hv
  have hf : t.sampleAt = fun k => s.sampleAt (8 + k) :=
    sampleAt_shift s t 8 (by rw [hv]) (by rw [hv]) (by rw [hv])
  rw [runActs_readByte t, hf, byteAt_shift, readByteEvents_shift, runActs_sendNakAfter, runActs_busStop]
  subst hv
  simp [runWrites, RegWrite.run, List.drop_drop, Nat.add_assoc]

/-- The common part of every attempt: counted, started, command sent, acknowledge sampled (R151). -/
theorem runActs_attemptHead (s : State) :
    runActs checkAck (runActs (commandPhase s.cmd) (countAttempt s)) =
      { s with
        sda := .rel, scl := .d0, bitidx := 0#3, attempt := s.attempt + 1#2, ackbit := s.sampleAt 0, dcnt := 0
        draws := s.draws.drop 1, drawIx := s.drawIx + 1
        rtrace := (busStartEvents ++ sendByteEvents s.cmd ++ releasedBitEvents (s.sampleAt 0)).reverse ++ s.rtrace } := by
  have hc := runActs_commandPhase s.cmd (countAttempt s)
  generalize runActs (commandPhase s.cmd) (countAttempt s) = t at hc
  have hf : t.sampleAt = s.sampleAt := sampleAt_congr s t (by rw [hc]; rfl) (by rw [hc]; rfl) (by rw [hc]; rfl)
  rw [runActs_checkAck, hf]
  subst hc
  simp [countAttempt, List.reverse_append]

/-- An attempt whose acknowledge is sampled as 1: nothing is read, VAL stays, OK is 0 (R151). -/
theorem attempt_not_acked (s : State) (h : s.sampleAt 0 = true) :
    attempt s =
      { s with
        sda := .d1, scl := .d1, bitidx := 0#3, attempt := s.attempt + 1#2, ackbit := true, ok := false, dcnt := 0
        draws := s.draws.drop 1, drawIx := s.drawIx + 1
        rtrace :=
          (busStartEvents ++ sendByteEvents s.cmd ++ releasedBitEvents true ++ busStopEvents).reverse ++ s.rtrace } := by
  have hc := runActs_attemptHead s
  unfold attempt
  rw [hc, h]
  simp [clearOk, runActs_busStop]

/-- An attempt whose acknowledge is sampled as 0: value and checksum byte are read and compared (R152, R153). -/
theorem attempt_acked (s : State) (h : s.sampleAt 0 = false) :
    attempt s =
      { s with
        sda := .d1, scl := .d1, bitidx := 0#3, shreg := byteAt s.sampleAt 9
        val := if checksumMatches (byteAt s.sampleAt 1) s.cmd (byteAt s.sampleAt 9) then byteAt s.sampleAt 1
          else Config.sentinel
        chk := byteAt s.sampleAt 9, attempt := s.attempt + 1#2, ackbit := false
        ok := checksumMatches (byteAt s.sampleAt 1) s.cmd (byteAt s.sampleAt 9), dcnt := 0
        draws := s.draws.drop 17, drawIx := s.drawIx + 17
        rtrace :=
          (busStartEvents ++ sendByteEvents s.cmd ++ releasedBitEvents false ++ readByteEvents s.sampleAt 1 ++
            sendAckEvents ++ readByteEvents s.sampleAt 9 ++ sendNakEvents ++ busStopEvents).reverse ++ s.rtrace } := by
  have hc := runActs_attemptHead s
  unfold attempt
  rw [h] at hc
  generalize runActs checkAck (runActs (commandPhase s.cmd) (countAttempt s)) = t at hc
  have hf : t.sampleAt = fun k => s.sampleAt (1 + k) :=
    sampleAt_shift s t 1 (by rw [hc]) (by rw [hc]) (by rw [hc])
  have ha : t.ackbit = false := by rw [hc]
  have hr := runActs_responsePhase t
  rw [hf, byteAt_shift, byteAt_shift, readByteEvents_shift, readByteEvents_shift] at hr
  simp only [ha, hr, validate]
  subst hc
  simp [Nat.add_assoc]

end Sys2Proof.Machine
end

