-- ==== Sys2Proof/Laws/Engine.lean ====
section
/-! SUPPORT. One attempt of READ_A_BYTE in terms of the transaction's samples (Safety.lean), its attempts together, and the
whole transaction in closed form. -/

namespace Sys2Proof.Machine

/-- Accepting a request leaves the samples to come as they are. -/
theorem sampleAt_start (op : BitVec 4) (arg : Byte) (s : State) : (s.start op arg).sampleAt = s.sampleAt :=
  sampleAt_congr _ _ (by simp) (by simp) (by simp)

/-- The attempt with index `j`, from a state whose samples to come are those of the transaction from that attempt on
(R151, R152, R153). -/
theorem attempt_indexed (s : State) (f : Nat → Level) (j : Nat)
    (hs : s.sampleAt = fun n => f (attemptStart f j + n)) :
    attempt s =
      { s with
        sda := .d1, scl := .d1, bitidx := 0#3
        shreg := if attemptAcked f j then attemptChecksum f j else s.shreg
        val := if attemptAcked f j then (if attemptPasses s.cmd f j then attemptValue f j else Config.sentinel) else s.val
        chk := if attemptAcked f j then attemptChecksum f j else s.chk
        attempt := s.attempt + 1#2, ackbit := f (attemptStart f j), ok := attemptPasses s.cmd f j, dcnt := 0
        draws := s.draws.drop (samplesTaken f (attemptStart f j))
        drawIx := s.drawIx + samplesTaken f (attemptStart f j)
        rtrace := (attemptEvents s.cmd f j).reverse ++ s.rtrace } := by
  have h0 : s.sampleAt 0 = f (attemptStart f j) := by rw [hs]; rfl
  cases hf : f (attemptStart f j)
  · rw [attempt_acked s (h0.trans hf), hs, byteAt_shift, byteAt_shift, readByteEvents_shift, readByteEvents_shift]
    simp [attemptAcked, attemptPasses, attemptValue, attemptChecksum, samplesTaken, attemptEvents, checksumMatches, hf]
  · rw [attempt_not_acked s (h0.trans hf)]
    simp [attemptAcked, attemptPasses, samplesTaken, attemptEvents, hf]

/-- The samples to come after the attempt with index `j` are those of the transaction from the next one on. -/
theorem sampleAt_attempt (s : State) (f : Nat → Level) (j : Nat)
    (hs : s.sampleAt = fun n => f (attemptStart f j + n)) :
    (attempt s).sampleAt = fun n => f (attemptStart f (j + 1) + n) := by
  have h := attempt_indexed s f j hs
  rw [sampleAt_shift s (attempt s) (samplesTaken f (attemptStart f j)) (by rw [h]) (by rw [h]) (by rw [h])]
  funext n
  rw [hs]
  simp [attemptStart, Nat.add_assoc]

/-! ## The attempts together -/

/-- The last checksum byte read in the first `n` attempts, `old` if none was acknowledged (R152). -/
def lastChecksum (f : Nat → Level) (old : Byte) : Nat → Byte
  | 0 => old
  | j + 1 => if attemptAcked f j then attemptChecksum f j else lastChecksum f old j

/-- The state after `n` attempts of which all but the last failed. -/
def afterAttempts (s : State) (f : Nat → Level) (n : Nat) : State :=
  match n with
  | 0 => s
  | n + 1 =>
    { s with
      sda := .d1, scl := .d1, bitidx := 0#3
      shreg := lastChecksum f s.shreg (n + 1)
      val := if attemptPasses s.cmd f n then attemptValue f n else Config.sentinel
      chk := lastChecksum f s.chk (n + 1)
      attempt := s.attempt + BitVec.ofNat 2 (n + 1), ackbit := f (attemptStart f n), ok := attemptPasses s.cmd f n
      dcnt := 0, draws := s.draws.drop (attemptStart f (n + 1)), drawIx := s.drawIx + attemptStart f (n + 1)
      rtrace := ((List.range (n + 1)).flatMap (attemptEvents s.cmd f)).reverse ++ s.rtrace }

theorem afterAttempts_sampleAt (s : State) (n : Nat) :
    (afterAttempts s s.sampleAt n).sampleAt = fun k => s.sampleAt (attemptStart s.sampleAt n + k) := by
  cases n with
  | zero => funext k; simp [afterAttempts, attemptStart]
  | succ n => exact sampleAt_shift s _ _ rfl rfl rfl

theorem afterAttempts_cmd (s : State) (f : Nat → Level) (n : Nat) : (afterAttempts s f n).cmd = s.cmd := by
  cases n <;> rfl

/-- One more attempt after `n` failed ones. -/
theorem attempt_afterAttempts (s : State) (n : Nat) (hv : s.val = Config.sentinel)
    (hn : ∀ j < n, attemptPasses s.cmd s.sampleAt j = false) :
    attempt (afterAttempts s s.sampleAt n) = afterAttempts s s.sampleAt (n + 1) := by
  rw [attempt_indexed _ s.sampleAt n (afterAttempts_sampleAt s n), afterAttempts_cmd]
  have hpa : attemptAcked s.sampleAt n = false → attemptPasses s.cmd s.sampleAt n = false := by
    intro h; simp [attemptPasses, h]
  cases n with
  | zero =>
    cases ha : attemptAcked s.sampleAt 0
    · simp [afterAttempts, lastChecksum, attemptStart, ha, hpa ha, hv, List.range_succ]
    · simp [afterAttempts, lastChecksum, attemptStart, ha, List.range_succ]
  | succ n =>
    have hlast := hn n (by omega)
    cases ha : attemptAcked s.sampleAt (n + 1)
    · simp only [afterAttempts, lastChecksum, ha, hpa ha, hlast, List.range_succ (n := n + 1)]
      simp [attemptStart, List.drop_drop, Nat.add_assoc, BitVec.add_assoc, BitVec.ofNat_add]
    · simp only [afterAttempts, lastChecksum, ha, hlast, List.range_succ (n := n + 1)]
      simp [attemptStart, List.drop_drop, Nat.add_assoc, BitVec.add_assoc, BitVec.ofNat_add]

/-- The attempts of a call that has just been entered (R150, R154). -/
theorem attempts_spec (s : State) (hv : s.val = Config.sentinel) (ha : s.attempt = 0#2) :
    attempts Config.nAttempts s = afterAttempts s s.sampleAt (attemptCount s.cmd s.sampleAt) := by
  have h0 := attempt_afterAttempts s 0 hv (by simp)
  simp only [Config.nAttempts, attempts, attemptCount]
  rw [show attempt s = afterAttempts s s.sampleAt 1 from h0]
  cases p0 : attemptPasses s.cmd s.sampleAt 0
  · have h1 := attempt_afterAttempts s 1 hv (by intro j hj; interval_cases j; exact p0)
    rw [h1]
    cases p1 : attemptPasses s.cmd s.sampleAt 1
    · have h2 := attempt_afterAttempts s 2 hv (by intro j hj; interval_cases j <;> assumption)
      rw [h2]
      simp [attemptsOver, afterAttempts, p0, p1, ha, Config.nAttempts]
    · simp [attemptsOver, afterAttempts, p0, p1, ha, Config.nAttempts]
  · simp [attemptsOver, afterAttempts, p0]

theorem attemptCount_range (c : Byte) (f : Nat → Level) : 1 ≤ attemptCount c f ∧ attemptCount c f ≤ 3 := by
  unfold attemptCount; split <;> (try split) <;> omega

/-- The whole transaction from an accepted request (R155). -/
theorem readRegister_spec (s : State) :
    readRegister s = (afterAttempts (enterEngine s) s.sampleAt (attemptCount s.arg s.sampleAt)).respond
      (transactionResult s.arg s.sampleAt) false := by
  have hsa : (enterEngine s).sampleAt = s.sampleAt := sampleAt_congr _ _ rfl rfl rfl
  have h := attempts_spec (enterEngine s) rfl rfl
  rw [hsa] at h
  unfold readRegister
  simp only [h]
  congr 1
  unfold attemptCount transactionResult
  show _ = (_ : Byte)
  cases p0 : attemptPasses s.arg s.sampleAt 0
  · cases p1 : attemptPasses s.arg s.sampleAt 1
    · cases p2 : attemptPasses s.arg s.sampleAt 2 <;> simp [afterAttempts, enterEngine, p0, p1, p2, Config.sentinel]
    · simp [afterAttempts, enterEngine, p0, p1]
  · simp [afterAttempts, enterEngine, p0]

end Sys2Proof.Machine
end

