-- ==== Sys2Proof/Laws/PerInstr.lean ====
section
/-! SUPPORT. Per instruction: which of the two formats encodes it, with which fields (30_encoding.md R70, R72, R80). -/

namespace Sys2Proof.Laws.Format

open Sys2Proof.Machine

/-- The instruction is well formed, and its encoding, for whatever values of the command parameters, is either a request
word whose fields are its op code and argument, and then it is no command parameter, or a single byte, and then it is
one. -/
def Statement (i : Instr) : Prop :=
  i.wellFormed = true ∧ ∀ codes : CommandCodes,
  match encode codes i with
  | .word w => requestOp w = opCodeOf i ∧ requestArg w = argByteOf codes i ∧ i.isCommand = false
  | .byte b => b = argByteOf codes i ∧ i.isCommand = true

theorem delay (arg : Byte) : Statement (.delay arg) :=
  ⟨rfl, fun _ => ⟨requestOp_requestWord _ arg, requestArg_requestWord _ arg, rfl⟩⟩
theorem busStart (arg : Byte) : Statement (.busStart arg) :=
  ⟨rfl, fun _ => ⟨requestOp_requestWord _ arg, requestArg_requestWord _ arg, rfl⟩⟩
theorem busStop (arg : Byte) : Statement (.busStop arg) :=
  ⟨rfl, fun _ => ⟨requestOp_requestWord _ arg, requestArg_requestWord _ arg, rfl⟩⟩
theorem sendByte (arg : Byte) : Statement (.sendByte arg) :=
  ⟨rfl, fun _ => ⟨requestOp_requestWord _ arg, requestArg_requestWord _ arg, rfl⟩⟩
theorem readByte (arg : Byte) : Statement (.readByte arg) :=
  ⟨rfl, fun _ => ⟨requestOp_requestWord _ arg, requestArg_requestWord _ arg, rfl⟩⟩
theorem checkAck (arg : Byte) : Statement (.checkAck arg) :=
  ⟨rfl, fun _ => ⟨requestOp_requestWord _ arg, requestArg_requestWord _ arg, rfl⟩⟩
theorem sendAck (arg : Byte) : Statement (.sendAck arg) :=
  ⟨rfl, fun _ => ⟨requestOp_requestWord _ arg, requestArg_requestWord _ arg, rfl⟩⟩
theorem sendNak (arg : Byte) : Statement (.sendNak arg) :=
  ⟨rfl, fun _ => ⟨requestOp_requestWord _ arg, requestArg_requestWord _ arg, rfl⟩⟩
theorem readAByte (arg : Byte) : Statement (.readAByte arg) :=
  ⟨rfl, fun _ => ⟨requestOp_requestWord _ arg, requestArg_requestWord _ arg, rfl⟩⟩
theorem reserved0 (arg : Byte) : Statement (.reserved0 arg) :=
  ⟨rfl, fun _ => ⟨requestOp_requestWord _ arg, requestArg_requestWord _ arg, rfl⟩⟩
theorem reservedA (arg : Byte) : Statement (.reservedA arg) :=
  ⟨rfl, fun _ => ⟨requestOp_requestWord _ arg, requestArg_requestWord _ arg, rfl⟩⟩
theorem reservedB (arg : Byte) : Statement (.reservedB arg) :=
  ⟨rfl, fun _ => ⟨requestOp_requestWord _ arg, requestArg_requestWord _ arg, rfl⟩⟩
theorem reservedC (arg : Byte) : Statement (.reservedC arg) :=
  ⟨rfl, fun _ => ⟨requestOp_requestWord _ arg, requestArg_requestWord _ arg, rfl⟩⟩
theorem reservedD (arg : Byte) : Statement (.reservedD arg) :=
  ⟨rfl, fun _ => ⟨requestOp_requestWord _ arg, requestArg_requestWord _ arg, rfl⟩⟩
theorem reservedE (arg : Byte) : Statement (.reservedE arg) :=
  ⟨rfl, fun _ => ⟨requestOp_requestWord _ arg, requestArg_requestWord _ arg, rfl⟩⟩
theorem reservedF (arg : Byte) : Statement (.reservedF arg) :=
  ⟨rfl, fun _ => ⟨requestOp_requestWord _ arg, requestArg_requestWord _ arg, rfl⟩⟩
theorem cmdTypeLb : Statement .cmdTypeLb := ⟨rfl, fun _ => ⟨rfl, rfl⟩⟩
theorem cmdTypeHb : Statement .cmdTypeHb := ⟨rfl, fun _ => ⟨rfl, rfl⟩⟩
theorem cmdParams : Statement .cmdParams := ⟨rfl, fun _ => ⟨rfl, rfl⟩⟩
theorem cmdStatus : Statement .cmdStatus := ⟨rfl, fun _ => ⟨rfl, rfl⟩⟩
theorem cmdHumLb : Statement .cmdHumLb := ⟨rfl, fun _ => ⟨rfl, rfl⟩⟩
theorem cmdHumHb : Statement .cmdHumHb := ⟨rfl, fun _ => ⟨rfl, rfl⟩⟩
theorem cmdTempLb : Statement .cmdTempLb := ⟨rfl, fun _ => ⟨rfl, rfl⟩⟩
theorem cmdTempHb : Statement .cmdTempHb := ⟨rfl, fun _ => ⟨rfl, rfl⟩⟩
theorem cmdPresLb : Statement .cmdPresLb := ⟨rfl, fun _ => ⟨rfl, rfl⟩⟩
theorem cmdPresHb : Statement .cmdPresHb := ⟨rfl, fun _ => ⟨rfl, rfl⟩⟩
theorem cmdCo2Lb : Statement .cmdCo2Lb := ⟨rfl, fun _ => ⟨rfl, rfl⟩⟩
theorem cmdCo2Hb : Statement .cmdCo2Hb := ⟨rfl, fun _ => ⟨rfl, rfl⟩⟩

end Sys2Proof.Laws.Format
end

