-- ==== Sys2Proof/Laws/Tick.lean ====
section
/-! SUPPORT. What one edge of the sequencer can do, said once, and how edges compose. -/

namespace Sys2Proof.Machine

/-! ## What running actions leaves alone -/

/-- A procedure's actions write none of these: the request's registers, the response, the position, the inputs and the
model's settings. -/
theorem Act.run_keeps (a : Act) (s : State) :
    (a.run s).op = s.op ∧ (a.run s).arg = s.arg ∧ (a.run s).cmd = s.cmd ∧ (a.run s).pos = s.pos ∧
    (a.run s).rst = s.rst ∧ (a.run s).sdaHeld = s.sdaHeld ∧ (a.run s).attempt = s.attempt ∧
    (a.run s).ok = s.ok ∧ (a.run s).rspData = s.rspData ∧ (a.run s).rspErr = s.rspErr ∧
    (a.run s).rspPulse = s.rspPulse ∧ (a.run s).hostSide = s.hostSide ∧ (a.run s).settings = s.settings := by
  cases a with
  | drive l b => cases l <;> exact ⟨rfl, rfl, rfl, rfl, rfl, rfl, rfl, rfl, rfl, rfl, rfl, rfl, rfl⟩
  | release l => cases l <;> exact ⟨rfl, rfl, rfl, rfl, rfl, rfl, rfl, rfl, rfl, rfl, rfl, rfl, rfl⟩
  | lowAfter ws =>
    obtain ⟨b, sh, v, c, h⟩ := runWrites_writes ws s
    rw [Act.run, h]
    exact ⟨rfl, rfl, rfl, rfl, rfl, rfl, rfl, rfl, rfl, rfl, rfl, rfl, rfl⟩
  | _ => exact ⟨rfl, rfl, rfl, rfl, rfl, rfl, rfl, rfl, rfl, rfl, rfl, rfl, rfl⟩

/-- Every entry of a procedure's list adds exactly one event, one of the bus (R12, R32). -/
theorem Act.run_event (a : Act) (s : State) : ∃ e, (a.run s).rtrace = e :: s.rtrace ∧ e.onBus = true := by
  cases a with
  | drive l b => cases l <;> exact ⟨_, rfl, rfl⟩
  | release l => cases l <;> exact ⟨_, rfl, rfl⟩
  | lowAfter ws =>
    obtain ⟨b, sh, v, c, h⟩ := runWrites_writes ws s
    exact ⟨.drive .scl false, by rw [Act.run, h]; rfl, rfl⟩
  | _ => exact ⟨_, rfl, rfl⟩

/-- What a whole list leaves alone is what each of its actions does. -/
theorem runActs_keeps (as : List Act) (s : State) :
    (runActs as s).op = s.op ∧ (runActs as s).arg = s.arg ∧ (runActs as s).cmd = s.cmd ∧
    (runActs as s).pos = s.pos ∧ (runActs as s).rst = s.rst ∧ (runActs as s).sdaHeld = s.sdaHeld ∧
    (runActs as s).attempt = s.attempt ∧ (runActs as s).ok = s.ok ∧ (runActs as s).rspData = s.rspData ∧
    (runActs as s).rspErr = s.rspErr ∧ (runActs as s).rspPulse = s.rspPulse ∧
    (runActs as s).hostSide = s.hostSide ∧ (runActs as s).settings = s.settings := by
  induction as generalizing s with
  | nil => exact ⟨rfl, rfl, rfl, rfl, rfl, rfl, rfl, rfl, rfl, rfl, rfl, rfl, rfl⟩
  | cons a as ih =>
    obtain ⟨h1, h2, h3, h4, h5, h6, h7, h8, h9, h10, h11, h12, h13⟩ := ih (a.run s)
    obtain ⟨k1, k2, k3, k4, k5, k6, k7, k8, k9, k10, k11, k12, k13⟩ := a.run_keeps s
    exact ⟨h1.trans k1, h2.trans k2, h3.trans k3, h4.trans k4, h5.trans k5, h6.trans k6, h7.trans k7, h8.trans k8,
      h9.trans k9, h10.trans k10, h11.trans k11, h12.trans k12, h13.trans k13⟩

/-- A phase's list depends on OP, ARG and CMD alone. -/
theorem phaseActs_congr (ph : Phase) (s t : State) (ho : t.op = s.op) (ha : t.arg = s.arg) (hc : t.cmd = s.cmd) :
    phaseActs ph t = phaseActs ph s := by
  cases ph <;> simp [phaseActs, opActs, ho, ha, hc]

/-! ## One edge -/

/-- What the core's edge can do: a reset, an accepting edge, an idle edge, or an edge of the running request. -/
theorem coreEdge_next_cases (s t : State) (h : coreEdge s = .next t) :
    (s.rst = true ∧ t = s.takeReset) ∨
    (s.rst = false ∧ s.contends = false ∧ s.pos = .idle ∧ s.reqValid = true ∧ t = s.accept s.reqOp s.reqArg) ∨
    (s.rst = false ∧ s.contends = false ∧ s.pos = .idle ∧ s.reqValid = false ∧ t = s.idleEdge) ∨
    (∃ ph k, s.rst = false ∧ s.contends = false ∧ s.pos = .run ph k ∧ t = runEdge ph k s) := by
  unfold coreEdge at h
  cases hr : s.rst
  · cases hc : s.contends
    · rw [hr, hc] at h
      simp only [Bool.false_eq_true, if_false] at h
      cases hp : s.pos with
      | idle =>
        rw [hp] at h
        cases hv : s.reqValid
        · rw [hv] at h; cases h; exact .inr (.inr (.inl ⟨rfl, rfl, rfl, rfl, rfl⟩))
        · rw [hv] at h; cases h; exact .inr (.inl ⟨rfl, rfl, rfl, rfl, rfl⟩)
      | run ph k =>
        rw [hp] at h; cases h; exact .inr (.inr (.inr ⟨ph, k, rfl, rfl, rfl, rfl⟩))
    · rw [hr, hc] at h; cases h
  · rw [hr] at h; cases h; exact .inl ⟨rfl, rfl⟩

/-- A clock edge is the core's edge and then the host's move (R24, R214). -/
theorem tick_next_iff (s t : State) : tick s = .next t ↔ ∃ u, coreEdge s = .next u ∧ t = u.hostMove := by
  unfold tick
  cases coreEdge s <;> simp [eq_comm]

/-- What one clock edge can do: a reset, an accepting edge, an idle edge, or an edge of the running request, each with the
host's move for the next cycle. -/
theorem tick_next_cases (s t : State) (h : tick s = .next t) :
    (s.rst = true ∧ t = s.takeReset.hostMove) ∨
    (s.rst = false ∧ s.contends = false ∧ s.pos = .idle ∧ s.reqValid = true ∧
      t = (s.accept s.reqOp s.reqArg).hostMove) ∨
    (s.rst = false ∧ s.contends = false ∧ s.pos = .idle ∧ s.reqValid = false ∧ t = s.idleEdge.hostMove) ∨
    (∃ ph k, s.rst = false ∧ s.contends = false ∧ s.pos = .run ph k ∧ t = (runEdge ph k s).hostMove) := by
  obtain ⟨u, hu, rfl⟩ := (tick_next_iff s t).mp h
  rcases coreEdge_next_cases s u hu with ⟨h1, rfl⟩ | ⟨h1, h2, h3, h4, rfl⟩ | ⟨h1, h2, h3, h4, rfl⟩ | ⟨ph, k, h1, h2, h3, rfl⟩
  · exact .inl ⟨h1, rfl⟩
  · exact .inr (.inl ⟨h1, h2, h3, h4, rfl⟩)
  · exact .inr (.inr (.inl ⟨h1, h2, h3, h4, rfl⟩))
  · exact .inr (.inr (.inr ⟨ph, k, h1, h2, h3, rfl⟩))

/-- A reset edge (R230). -/
theorem tick_reset (s : State) (hr : s.rst = true) : tick s = .next s.takeReset.hostMove := by
  unfold tick coreEdge
  rw [hr]; rfl

/-- An edge of a running request, outside reset and contention. -/
theorem tick_run (s : State) (ph : Phase) (k : Nat) (hr : s.rst = false) (hc : s.contends = false)
    (hp : s.pos = .run ph k) : tick s = .next (runEdge ph k s).hostMove := by
  unfold tick coreEdge
  rw [hr, hc, hp]; rfl

/-- A cycle of the wait that DCNT counts, not its last one (R35). -/
theorem runEdge_count (ph : Phase) (k d : Nat) (s : State) (h : s.dcnt = d + 2) :
    runEdge ph k s = { s with dcnt := d + 1 } := by
  unfold runEdge; rw [h]

/-- The last cycle of a wait: the step advances (R32, R35). -/
theorem runEdge_last (ph : Phase) (k : Nat) (s : State) (h : s.dcnt = 1) :
    runEdge ph k s = { s with dcnt := 0 }.atStep ph (k + 1) := by
  unfold runEdge; rw [h]

/-- The next action of the phase's list. -/
theorem runEdge_step (ph : Phase) (k : Nat) (a : Act) (s : State) (h : s.dcnt = 0)
    (ha : (phaseActs ph s)[k]? = some a) : runEdge ph k s = runStep ph k a s := by
  unfold runEdge; rw [h, ha]

/-- The end of the phase's list. -/
theorem runEdge_finish (ph : Phase) (k : Nat) (s : State) (h : s.dcnt = 0) (ha : (phaseActs ph s)[k]? = none) :
    runEdge ph k s = finishPhase ph s := by
  unfold runEdge; rw [h, ha]

/-- An edge of a running request leaves the inputs, the host's side and the model's settings alone. -/
theorem runEdge_keeps (ph : Phase) (k : Nat) (s : State) :
    (runEdge ph k s).hostSide = s.hostSide ∧ (runEdge ph k s).settings = s.settings := by
  unfold runEdge
  split
  · exact ⟨rfl, rfl⟩
  · exact ⟨rfl, rfl⟩
  · split
    · rename_i a _
      cases a with
      | wait n => exact ⟨rfl, rfl⟩
      | _ => exact (Act.run_keeps _ s).2.2.2.2.2.2.2.2.2.2.2
    · cases ph with
      | op => unfold finishPhase finishOp; cases decodeOp s.op <;> exact ⟨rfl, rfl⟩
      | checkAck => unfold finishPhase; cases s.ackbit <;> exact ⟨rfl, rfl⟩
      | validate => unfold finishPhase; dsimp only; split <;> exact ⟨rfl, rfl⟩
      | retry => unfold finishPhase; dsimp only; split <;> exact ⟨rfl, rfl⟩
      | _ => exact ⟨rfl, rfl⟩

theorem runWrites_atStep (ws : List RegWrite) (ph : Phase) (k : Nat) (s : State) :
    runWrites ws (s.atStep ph k) = (runWrites ws s).atStep ph k := by
  induction ws generalizing s with
  | nil => rfl
  | cons w ws ih => rw [runWrites, runWrites, ← ih]; cases w <;> rfl

/-- The position is none of a procedure's business (R32). -/
theorem runActs_atStep (as : List Act) (ph : Phase) (k : Nat) (s : State) :
    runActs as (s.atStep ph k) = (runActs as s).atStep ph k := by
  induction as generalizing s with
  | nil => rfl
  | cons a as ih =>
    rw [runActs, runActs, ← ih]
    congr 1
    cases a with
    | drive l b => cases l <;> rfl
    | release l => cases l <;> rfl
    | lowAfter ws => rw [Act.run, Act.run, runWrites_atStep]; rfl
    | _ => rfl

/-- Every action but a Wait is one edge: it runs, and the step advances (R32). -/
theorem runStep_act (ph : Phase) (k : Nat) (a : Act) (s : State) (ha : ∀ n, a ≠ .wait n) :
    runStep ph k a s = (a.run s).atStep ph (k + 1) := by
  cases a with
  | wait n => exact absurd rfl (ha n)
  | _ => rfl

/-! ## Several edges -/

theorem ticks_zero (s : State) : ticks 0 s = .next s := rfl

theorem ticks_succ_next (n : Nat) (s t : State) (h : tick s = .next t) : ticks (n + 1) s = ticks n t := by
  rw [ticks, h]

/-- Edges compose. -/
theorem ticks_add (m n : Nat) (s t : State) (h : ticks m s = .next t) : ticks (m + n) s = ticks n t := by
  induction m generalizing s with
  | zero => cases h; rw [Nat.zero_add]
  | succ m ih =>
    rw [Nat.succ_add, ticks]
    rw [ticks] at h
    cases ht : tick s with
    | next u => rw [ht] at h; exact ih u h
    | fault f => rw [ht] at h; cases h
    | refused r => rw [ht] at h; cases h

theorem coreEdge_not_refused (s : State) (r : Refusal) : coreEdge s ≠ .refused r := by
  unfold coreEdge
  split
  · simp
  · split
    · simp
    · split
      · simp
      · split <;> simp

/-- No edge ever refuses. -/
theorem tick_not_refused (s : State) (r : Refusal) : tick s ≠ .refused r := by
  unfold tick
  split
  · simp
  · simp
  · rename_i q h; exact absurd h (coreEdge_not_refused s q)

end Sys2Proof.Machine
end

