-- ==== Sys2Proof/Laws/Trace.lean ====
section
/-! SUPPORT. Traces: how a run's events stand in the trace, and how each observation of a trace splits at an append. -/

namespace Sys2Proof.Machine

/-- Events put in front of the newest-first list stand, oldest first, at the end of the trace (R28). -/
theorem trace_of_rtrace {s t : State} {es : List Event} (h : t.rtrace = es.reverse ++ s.rtrace) :
    t.trace = s.trace ++ es := by
  simp [State.trace, h]

/-- A request's trace from the newest-first list: Respond, the events, Accept (R28). -/
theorem traced_of_rtrace {op : BitVec 4} {arg : Byte} {es : List Event} {s t : State}
    (h : t.rtrace = .respond t.rspData t.rspErr :: (es.reverse ++ (.accept op arg :: s.rtrace))) :
    Traced op arg es s t := by
  simp [Traced, State.trace, h]

/-! ## Observations of an append -/

theorem waitUnits_append (es fs : List Event) : waitUnits (es ++ fs) = waitUnits es + waitUnits fs := by
  induction es with
  | nil => simp [waitUnits]
  | cons e es ih => cases e <;> simp [waitUnits, ih, Nat.add_assoc]

/-- The drive states after a list of events. -/
def padsAfterAll (p : Pads) (es : List Event) : Pads := es.foldl padsAfter p

theorem sclRises_append (p : Pads) (es fs : List Event) :
    sclRises p (es ++ fs) = sclRises p es + sclRises (padsAfterAll p es) fs := by
  induction es generalizing p with
  | nil => simp [sclRises, padsAfterAll]
  | cons e es ih => simp [sclRises, padsAfterAll, ih, Nat.add_assoc]

theorem sdaChangesWhileHigh_append (p : Pads) (es fs : List Event) :
    sdaChangesWhileHigh p (es ++ fs) = sdaChangesWhileHigh p es + sdaChangesWhileHigh (padsAfterAll p es) fs := by
  induction es generalizing p with
  | nil => simp [sdaChangesWhileHigh, padsAfterAll]
  | cons e es ih => simp [sdaChangesWhileHigh, padsAfterAll, ih, Nat.add_assoc]

theorem samplesReleased_append (p : Pads) (es fs : List Event) :
    samplesReleased p (es ++ fs) = (samplesReleased p es && samplesReleased (padsAfterAll p es) fs) := by
  induction es generalizing p with
  | nil => simp [samplesReleased, padsAfterAll]
  | cons e es ih => simp [samplesReleased, padsAfterAll, ih, Bool.and_assoc]

theorem padsAfterAll_append (p : Pads) (es fs : List Event) :
    padsAfterAll p (es ++ fs) = padsAfterAll (padsAfterAll p es) fs := by
  simp [padsAfterAll]

/-- Reading a trace in two parts. -/
theorem traceBusy_append (b : Bool) (es fs : List Event) :
    traceBusy b (es ++ fs) = (traceBusy b es).bind (fun c => traceBusy c fs) := by
  induction es generalizing b with
  | nil => simp [traceBusy]
  | cons e es ih => cases e <;> cases b <;> simp [traceBusy, ih]

/-- Events of the bus alone are read while a request runs, and leave it running (R27, R28). -/
theorem traceBusy_onBus (es : List Event) (h : ∀ e ∈ es, e.onBus = true) : traceBusy true es = some true := by
  induction es with
  | nil => rfl
  | cons e es ih =>
    have he := h e (by simp)
    have ht := ih (fun e' h' => h e' (by simp [h']))
    cases e <;> simp_all [traceBusy, Event.onBus]

/-! ## The spec's event lists -/

theorem waitUnits_sendBitEvents (b : Level) : waitUnits (sendBitEvents b) = 3 * Config.tPh := by
  simp only [sendBitEvents, waitUnits]; omega

theorem waitUnits_readBitEvents (b : Level) : waitUnits (readBitEvents b) = 2 * Config.tPh := by
  simp only [readBitEvents, waitUnits]; omega

theorem waitUnits_releasedBitEvents (b : Level) : waitUnits (releasedBitEvents b) = 2 * Config.tPh := by
  simp only [releasedBitEvents, waitUnits]; omega

theorem waitUnits_sendByteEvents (v : Byte) : waitUnits (sendByteEvents v) = 24 * Config.tPh := by
  simp only [sendByteEvents, List.flatMap_cons, List.flatMap_nil, waitUnits_append, waitUnits_sendBitEvents, waitUnits]
  omega

theorem waitUnits_readByteEvents (f : Nat → Level) (k : Nat) : waitUnits (readByteEvents f k) = 16 * Config.tPh := by
  simp only [readByteEvents, List.flatMap_cons, List.flatMap_nil, waitUnits_append, waitUnits_readBitEvents,
    waitUnits_releasedBitEvents, waitUnits]
  omega

/-- Every event of a list of the spec is one of the bus. -/
theorem onBus_sendByteEvents (v : Byte) : ∀ e ∈ sendByteEvents v, e.onBus = true :=
  List.all_eq_true.mp (rfl : (sendByteEvents v).all Event.onBus = true)

theorem onBus_readByteEvents (f : Nat → Level) (k : Nat) : ∀ e ∈ readByteEvents f k, e.onBus = true :=
  List.all_eq_true.mp (rfl : (readByteEvents f k).all Event.onBus = true)

theorem onBus_releasedBitEvents (b : Level) : ∀ e ∈ releasedBitEvents b, e.onBus = true :=
  List.all_eq_true.mp (rfl : (releasedBitEvents b).all Event.onBus = true)

theorem onBus_sendAckEvents : ∀ e ∈ sendAckEvents, e.onBus = true :=
  List.all_eq_true.mp (rfl : sendAckEvents.all Event.onBus = true)

theorem onBus_sendNakEvents : ∀ e ∈ sendNakEvents, e.onBus = true :=
  List.all_eq_true.mp (rfl : sendNakEvents.all Event.onBus = true)

theorem onBus_busStartEvents : ∀ e ∈ busStartEvents, e.onBus = true :=
  List.all_eq_true.mp (rfl : busStartEvents.all Event.onBus = true)

theorem onBus_busStopEvents : ∀ e ∈ busStopEvents, e.onBus = true :=
  List.all_eq_true.mp (rfl : busStopEvents.all Event.onBus = true)

/-- The events of an attempt are events of the bus. -/
theorem onBus_attemptEvents (c : Byte) (f : Nat → Level) (j : Nat) : ∀ e ∈ attemptEvents c f j, e.onBus = true := by
  intro e he
  simp only [attemptEvents, List.mem_append] at he
  rcases he with (((he | he) | he) | he) | he
  · exact onBus_busStartEvents e he
  · exact onBus_sendByteEvents c e he
  · exact onBus_releasedBitEvents _ e he
  · split at he
    · simp at he
    · simp only [List.mem_append] at he
      rcases he with ((he | he) | he) | he
      · exact onBus_readByteEvents _ _ e he
      · exact onBus_sendAckEvents e he
      · exact onBus_readByteEvents _ _ e he
      · exact onBus_sendNakEvents e he
  · exact onBus_busStopEvents e he

end Sys2Proof.Machine
end

