-- ==== Sys2Proof/Tests/Slice0.lean ====
section
/-! SUPPORT. Tests on fixed values, their expected results from spec/ (95_test_vectors.md, or worked by hand from the rule
named), and for every obligation with hypotheses a witness that meets them. -/

namespace Sys2Proof.Tests

open Sys2Proof.Machine

/-! ## Small states and readings -/

/-- The draws `bits(x)` of 95_test_vectors.md: bit 7 first. -/
def bits (x : Byte) : List Level := [7, 6, 5, 4, 3, 2, 1, 0].map (fun i => x.getLsbD i)

/-- The state after reset with a slave script. -/
def scripted (draws : List Level) : State := { State.reset with draws := draws }

/-- A state after reset with the lines at given drive states. -/
def atPads (d c : Drive) (draws : List Level) : State := { State.reset with sda := d, scl := c, draws := draws }

/-- The state a step answers, the reset state where it answers none. -/
def after : Result → State
  | .next t => t
  | .fault _ => State.reset
  | .refused _ => State.reset

/-- The response of a step that answers one: `rsp_data` and `rsp_err`. -/
def response (r : Result) : Option (Byte × Bool) :=
  match r with
  | .next t => if t.rspValid then some (t.rspData, t.rspErr) else none
  | .fault _ => none
  | .refused _ => none

/-- The bus events of a step that started with an empty trace. -/
def busEvents (r : Result) : List Event := (after r).trace.filter Event.onBus

/-- Response, ATTEMPT, number of bus events and draws used of a READ_A_BYTE. -/
def readResult (c : Byte) (draws : List Level) : Option (Byte × Bool) × BitVec 2 × Nat × Nat :=
  let r := exec (.readAByte c) (scripted draws)
  (response r, (after r).attempt, (busEvents r).length, (after r).drawIx)

/-! ## WellFormed: an ill-formed term for each check (R81) -/

theorem test_wf_every_instruction : (Instr.reserved0 0xFF#8).wellFormed = true ∧ Instr.cmdStatus.wellFormed = true := by
  decide
theorem test_wf_refuses_imm_256 : (AsmOperand.imm 256).wellFormed = false := by decide
theorem test_wf_accepts_imm_255 : (AsmOperand.imm 255).wellFormed = true := by decide
theorem test_wf_refuses_param_no_command : (AsmOperand.param (.delay 1#8)).wellFormed = false := by decide
theorem test_wf_refuses_missing_operand : (AsmLine.op .delay []).wellFormed = false := by decide
theorem test_wf_refuses_surplus_operand : (AsmLine.op .busStart [.imm 0]).wellFormed = false := by decide
theorem test_wf_refuses_two_operands : (AsmLine.op .sendByte [.imm 1, .imm 2]).wellFormed = false := by decide
theorem test_wf_refuses_ill_formed_operand : (AsmLine.op .readAByte [.imm 300]).wellFormed = false := by decide
theorem test_wf_refuses_word_4096 : (AsmLine.word 4096).wellFormed = false := by decide
theorem test_wf_accepts_word_4095 : (AsmLine.word 4095).wellFormed = true := by decide
theorem test_wf_refuses_one_code_twice : { CommandCodes.default with cmdStatus := 0x11#8 }.distinct = false := by decide
theorem test_wf_accepts_default_codes : CommandCodes.default.distinct = true := by decide

/-! ## Decoding and encoding: words written out bit by bit (R70, R72, R80) -/

theorem test_decode_delay : decodeRequest 0b0001_00110101#12 = .delay 0x35#8 := by decide
theorem test_decode_busStart : decodeRequest 0b0010_01010010#12 = .busStart 0x52#8 := by decide
theorem test_decode_busStop : decodeRequest 0b0011_01101111#12 = .busStop 0x6F#8 := by decide
theorem test_decode_sendByte : decodeRequest 0b0100_10001100#12 = .sendByte 0x8C#8 := by decide
theorem test_decode_readByte : decodeRequest 0b0101_10101001#12 = .readByte 0xA9#8 := by decide
theorem test_decode_checkAck : decodeRequest 0b0110_11000110#12 = .checkAck 0xC6#8 := by decide
theorem test_decode_sendAck : decodeRequest 0b0111_11100011#12 = .sendAck 0xE3#8 := by decide
theorem test_decode_sendNak : decodeRequest 0b1000_00000000#12 = .sendNak 0x00#8 := by decide
theorem test_decode_readAByte : decodeRequest 0b1001_00011101#12 = .readAByte 0x1D#8 := by decide
theorem test_decode_reserved0 : decodeRequest 0b0000_00111010#12 = .reserved0 0x3A#8 := by decide
theorem test_decode_reservedA : decodeRequest 0b1010_01010111#12 = .reservedA 0x57#8 := by decide
theorem test_decode_reservedB : decodeRequest 0b1011_01110100#12 = .reservedB 0x74#8 := by decide
theorem test_decode_reservedC : decodeRequest 0b1100_10010001#12 = .reservedC 0x91#8 := by decide
theorem test_decode_reservedD : decodeRequest 0b1101_10101110#12 = .reservedD 0xAE#8 := by decide
theorem test_decode_reservedE : decodeRequest 0b1110_11001011#12 = .reservedE 0xCB#8 := by decide
theorem test_decode_reservedF : decodeRequest 0b1111_11101000#12 = .reservedF 0xE8#8 := by decide
theorem test_decode_cmdTypeLb : decodeTableWord 8 0b00010001 = some .cmdTypeLb := by decide
theorem test_decode_cmdTypeHb : decodeTableWord 8 0b01000001 = some .cmdTypeHb := by decide
theorem test_decode_cmdParams : decodeTableWord 8 0b00110001 = some .cmdParams := by decide
theorem test_decode_cmdStatus : decodeTableWord 8 0b01110001 = some .cmdStatus := by decide
theorem test_decode_cmdHumLb : decodeTableWord 8 0b10000001 = some .cmdHumLb := by decide
theorem test_decode_cmdHumHb : decodeTableWord 8 0b10010001 = some .cmdHumHb := by decide
theorem test_decode_cmdTempLb : decodeTableWord 8 0b10100001 = some .cmdTempLb := by decide
theorem test_decode_cmdTempHb : decodeTableWord 8 0b10110001 = some .cmdTempHb := by decide
theorem test_decode_cmdPresLb : decodeTableWord 8 0b11000001 = some .cmdPresLb := by decide
theorem test_decode_cmdPresHb : decodeTableWord 8 0b11010001 = some .cmdPresHb := by decide
theorem test_decode_cmdCo2Lb : decodeTableWord 8 0b11100001 = some .cmdCo2Lb := by decide
theorem test_decode_cmdCo2Hb : decodeTableWord 8 0b11110001 = some .cmdCo2Hb := by decide
theorem test_decode_refuses_unnamed_command : decodeCommand .default 0x72#8 = .error (.unnamedCommand 0x72#8) := by decide
theorem test_decode_refuses_bits_above : decodeTableWord 16 0x1971 = none ∧ decodeTableWord 8 0x171 = none := by decide
theorem test_decode_table_word : decodeTableWord 16 0x971 = some (.readAByte 0x71#8) := by decide
theorem test_encode_word : encode .default (.sendByte 0xA5#8) = .word 0b0100_10100101#12 := by decide
theorem test_encode_byte : encode .default .cmdHumLb = .byte 0b10000001#8 := by decide

/-- 30_encoding.md R81: `DELAY 10`, `BUS_START`, `READ_A_BYTE CMD_STATUS`, a reserved op as a bare word. -/
theorem test_assemble :
    let asm := assemble .default
    asm (.op .delay [.imm 10]) = some 0x10A#12 ∧ asm (.op .busStart []) = some 0x200#12 ∧
    asm (.op .readAByte [.param .cmdStatus]) = some 0x971#12 ∧ asm (.word 0xF12) = some 0xF12#12 ∧
    asm (.op .delay []) = none := by decide

/-- R9, R80: the status command at another value, 0x5C, is encoded, decoded and assembled with it. -/
theorem test_other_code :
    let codes := { CommandCodes.default with cmdStatus := 0x5C#8 }
    encode codes .cmdStatus = .byte 0x5C#8 ∧ decode codes (.byte 0x5C#8) = .ok .cmdStatus ∧
    decode codes (.byte 0x71#8) = .error (.unnamedCommand 0x71#8) ∧
    assemble codes (.op .readAByte [.param .cmdStatus]) = some 0x95C#12 := by decide

/-- 95_test_vectors.md P2: the words of ATTEMPT 0x81. -/
theorem test_attempt_expansion :
    (attemptExpansion (.imm 0x81)).map (assemble .default) =
      [some 0x200#12, some 0x481#12, some 0x600#12, some 0x500#12, some 0x700#12, some 0x500#12, some 0x800#12,
       some 0x300#12] := by decide

/-! ## Fetch: the placed instruction is the one the next step runs -/

theorem test_fetch_runs_word :
    step (State.reset.withFetchWord 16 0x45A) = exec (.sendByte 0x5A#8) (State.reset.withFetchWord 16 0x45A) := rfl
theorem test_fetch_runs_command :
    step (State.reset.withFetchWord 8 0x81) = exec .cmdHumLb (State.reset.withFetchWord 8 0x81) := rfl
/-- R9: with another status code the placed command is offered with it, and runs as the decoded row. -/
theorem test_fetch_other_code :
    let s := { State.reset with codes := { CommandCodes.default with cmdStatus := 0x5C#8 } }
    (s.withFetchWord 8 0x71).portWord = 0x95C#12 ∧
    step (s.withFetchWord 8 0x71) = exec .cmdStatus (s.withFetchWord 8 0x71) := ⟨rfl, rfl⟩
theorem test_fetch_changes_port_alone :
    State.reset.withFetchWord 16 0x45A =
      { State.reset with reqValid := true, reqOp := 0x4#4, reqArg := 0x5A#8 } := rfl

/-! ## Timing and framing (L2.2) -/

/-- L2.2.1. -/
theorem test_delay_0 : (after (exec (.delay 0#8) State.reset)).trace = [.accept 1#4 0#8, .wait 0, .respond 0#8 false] := by
  decide
/-- L2.2.2. -/
theorem test_delay_255 : busEvents (exec (.delay 255#8) State.reset) = [.wait 255] := by decide
/-- L2.2.3. -/
theorem test_busStart_idle :
    wire (.d1, .d1) [] (busEvents (exec (.busStart 0xFF#8) State.reset)) = [(true, true), (false, true)] := by decide
/-- L2.2.4: a BUS_START after a BUS_START makes a stop, then a start. -/
theorem test_busStart_again :
    wireFrom (.d0, .d1) true [] (busEvents (exec (.busStart 0#8) (atPads .d0 .d1 []))) =
      [(false, true), (true, true), (false, true)] := by decide
/-- L2.2.6. -/
theorem test_busStop_idle :
    wireFrom (.d1, .d1) true [] (busEvents (exec (.busStop 0#8) State.reset)) =
      [(true, true), (true, false), (false, false), (false, true), (true, true)] := by decide
/-- L2.2.8: after a CHECK_ACK, on an empty bus. -/
theorem test_busStop_released :
    wireFrom (.rel, .d0) true [] (busEvents (exec (.busStop 0#8) (atPads .rel .d0 []))) =
      [(true, false), (false, false), (false, true), (true, true)] := by decide

/-! ## Bit-level transfer (L2.3, L2.4) -/

/-- L2.3.1: the levels at the rises, and the drive states left. -/
theorem test_sendByte_a5 :
    let r := exec (.sendByte 0xA5#8) (atPads .d0 .d1 [])
    sdaAtRises (.d0, .d1) (busEvents r) = [true, false, true, false, false, true, false, true] ∧
    (busEvents r).length = 57 ∧ (after r).pads = (.rel, .d0) := by decide
/-- L2.3.4: most significant bit first. -/
theorem test_sendByte_80 :
    sdaAtRises (.d0, .d1) (busEvents (exec (.sendByte 0x80#8) (atPads .d0 .d1 []))) =
      [true, false, false, false, false, false, false, false] := by decide
/-- L2.3.5. -/
theorem test_readByte_71 :
    let r := exec (.readByte 0#8) (atPads .rel .d0 [false, true, true, true, false, false, false, true])
    response r = some (0x71#8, false) ∧ (busEvents r).length = 49 ∧ (after r).pads = (.rel, .d0) := by decide
/-- L2.3.11, its second READ_BYTE: what SHREG held does not matter. -/
theorem test_readByte_clears :
    response (exec (.readByte 0#8) { scripted (bits 0x00#8) with shreg := 0xFF#8 }) = some (0x00#8, false) := by decide
/-- L2.4.1. -/
theorem test_checkAck_ack :
    (after (exec (.checkAck 0#8) (atPads .rel .d0 [false]))).trace =
      [.accept 6#4 0#8, .drive .scl false, .release .sda, .wait Config.tPh, .drive .scl true, .wait Config.tPh,
       .sample .sda false, .drive .scl false, .respond 0x00#8 false] := rfl
/-- L2.4.2. -/
theorem test_checkAck_nak : response (exec (.checkAck 0#8) (atPads .rel .d0 [true])) = some (0x01#8, false) := by decide
/-- L2.4.3: after a READ_BYTE, wire `x0 00 01 00`, with x = 0 while the slave holds the released line low up to the
Drive(SDA, 0), and x = 1 on an empty bus; R29's own pairs, those after each event, are the same. -/
theorem test_sendAck :
    let r := exec (.sendAck 0#8) { atPads .rel .d0 [] with rspData := 0x5A#8 }
    response r = some (0x5A#8, false) ∧ (after r).pads = (.d0, .d0) ∧
    wireFrom (.rel, .d0) false [false, false] (busEvents r) = [(false, false), (false, true), (false, false)] ∧
    wireFrom (.rel, .d0) true [] (busEvents r) = [(true, false), (false, false), (false, true), (false, false)] ∧
    wire (.rel, .d0) [false, false] (busEvents r) = [(false, false), (false, true), (false, false)] := by decide
/-- L2.4.4: no final SCL fall. -/
theorem test_sendNak :
    let r := exec (.sendNak 0#8) (atPads .rel .d0 [])
    (after r).pads = (.d1, .d1) ∧ wireFrom (.rel, .d0) true [] (busEvents r) = [(true, false), (true, true)] := by decide

/-! ## Reserved op codes (L2.1) -/

/-- L2.1.4. -/
theorem test_reserved0 : (after (exec (.reserved0 0x00#8) State.reset)).trace = [.accept 0#4 0#8, .respond 0#8 true] := by
  decide
/-- L2.1.6: after a READ_BYTE that returned 0x5A. -/
theorem test_reservedA :
    response (exec (.reservedA 0x00#8) (after (exec (.readByte 0#8) (scripted (bits 0x5A#8))))) =
      some (0x5A#8, true) := by decide
/-- L2.1.5. -/
theorem test_reservedF : response (exec (.reservedF 0x12#8) State.reset) = some (0#8, true) := by decide
theorem test_reservedB : busEvents (exec (.reservedB 0x00#8) State.reset) = [] := by decide
theorem test_reservedC : (after (exec (.reservedC 0x07#8) State.reset)).arg = 0x07#8 := by decide
theorem test_reservedD : (after (exec (.reservedD 0x00#8) State.reset)).busy = false := by decide
theorem test_reservedE : (after (exec (.reservedE 0x00#8) State.reset)).op = 0xE#4 := by decide
/-- L2.1.8: a SEND_BYTE after a reserved op responds with `rsp_err = 0` again. -/
theorem test_rspErr_cleared :
    response (exec (.sendByte 0#8) { State.reset with rspErr := true }) = some (0#8, false) := by decide

/-! ## The command engine (L2.7) -/


/-- L2.7.1. -/
theorem test_read_accepted :
    readResult 0x71#8 (false :: bits 0x00#8 ++ bits 0x71#8) = (some (0x00#8, false), 1#2, 187, 17) := by decide +kernel
/-- L2.7.3: the checksum sum wraps. -/
theorem test_read_wraps :
    readResult 0x71#8 (false :: bits 0x8F#8 ++ bits 0x00#8) = (some (0x8F#8, false), 1#2, 187, 17) := by decide +kernel
/-- L2.7.4. -/
theorem test_read_never_acknowledged :
    readResult 0x00#8 [true, true, true] = (some (0xFF#8, false), 3#2, 228, 3) := by decide +kernel
/-- L2.7.8, P4. -/
theorem test_read_third_attempt :
    readResult 0xA1#8
      (true :: false :: bits 0x10#8 ++ bits 0x00#8 ++ (false :: bits 0x10#8 ++ bits 0xB1#8)) =
      (some (0x10#8, false), 3#2, 450, 35) := by decide +kernel
/-- L2.7.9: the checksum failure sets VAL to 0xFF and the last attempt leaves it. -/
theorem test_read_mixed_failures :
    readResult 0x11#8 (true :: false :: bits 0x05#8 ++ bits 0x00#8 ++ [true]) =
      (some (0xFF#8, false), 3#2, 339, 19) := by decide +kernel
/-- L2.7, last lines: the wire of a not-acknowledged attempt with C = 0x71 on an empty bus. -/
theorem test_attempt_wire :
    wireFrom (.d1, .d1) true [] ((attempt { scripted [true] with cmd := 0x71#8 }).trace) =
      [(true, true), (false, true), (false, false), (false, true), (false, false), (true, false), (true, true),
       (true, false), (true, true), (true, false), (true, true), (true, false), (false, false), (false, true),
       (false, false), (false, true), (false, false), (false, true), (false, false), (true, false), (true, true),
       (true, false), (true, true), (true, false), (false, false), (false, true), (true, true)] := by decide +kernel

/-- R200: the codes of the two failures of an attempt, and 0 where there is none. -/
theorem test_failure_codes :
    (attemptFailure true false).code = 1 ∧ (attemptFailure false false).code = 2 ∧
    (attemptFailure false true).code = 0 ∧ Failure.reservedOp.code = 3 := by decide

/-! ## The command bytes: the checksum of the reply 0x05 is 0x05 plus the command byte (R80, R153) -/

theorem test_cmdTypeLb :
    response (exec .cmdTypeLb (scripted (false :: bits 0x05#8 ++ bits 0x16#8))) = some (0x05#8, false) := by
  decide +kernel
theorem test_cmdTypeHb :
    response (exec .cmdTypeHb (scripted (false :: bits 0x05#8 ++ bits 0x46#8))) = some (0x05#8, false) := by
  decide +kernel
theorem test_cmdParams :
    response (exec .cmdParams (scripted (false :: bits 0x05#8 ++ bits 0x36#8))) = some (0x05#8, false) := by
  decide +kernel
theorem test_cmdStatus :
    response (exec .cmdStatus (scripted (false :: bits 0x05#8 ++ bits 0x76#8))) = some (0x05#8, false) := by
  decide +kernel
theorem test_cmdHumLb :
    response (exec .cmdHumLb (scripted (false :: bits 0x05#8 ++ bits 0x86#8))) = some (0x05#8, false) := by
  decide +kernel
theorem test_cmdHumHb :
    response (exec .cmdHumHb (scripted (false :: bits 0x05#8 ++ bits 0x96#8))) = some (0x05#8, false) := by
  decide +kernel
theorem test_cmdTempLb :
    response (exec .cmdTempLb (scripted (false :: bits 0x05#8 ++ bits 0xA6#8))) = some (0x05#8, false) := by
  decide +kernel
theorem test_cmdTempHb :
    response (exec .cmdTempHb (scripted (false :: bits 0x05#8 ++ bits 0xB6#8))) = some (0x05#8, false) := by
  decide +kernel
theorem test_cmdPresLb :
    response (exec .cmdPresLb (scripted (false :: bits 0x05#8 ++ bits 0xC6#8))) = some (0x05#8, false) := by
  decide +kernel
theorem test_cmdPresHb :
    response (exec .cmdPresHb (scripted (false :: bits 0x05#8 ++ bits 0xD6#8))) = some (0x05#8, false) := by
  decide +kernel
theorem test_cmdCo2Lb :
    response (exec .cmdCo2Lb (scripted (false :: bits 0x05#8 ++ bits 0xE6#8))) = some (0x05#8, false) := by
  decide +kernel
theorem test_cmdCo2Hb :
    response (exec .cmdCo2Hb (scripted (false :: bits 0x05#8 ++ bits 0xF6#8))) = some (0x05#8, false) := by
  decide +kernel

/-- R9, R80: the status command at another value, 0x5C, is sent and checked with it. -/
theorem test_cmdStatus_other_code :
    response (exec .cmdStatus
      { scripted (false :: bits 0x05#8 ++ bits 0x61#8) with
        codes := { CommandCodes.default with cmdStatus := 0x5C#8 } }) = some (0x05#8, false) := by
  decide +kernel

/-! ## Reset, and single edges (L2.8) -/

/-- L2.8.1. -/
theorem test_reset_not_ready :
    { State.reset with rst := true }.reqReady = false ∧ State.reset.reqReady = true := by decide
/-- R230: `rst` raised in the cycle after a Respond masks the pulse. -/
theorem test_reset_masks_response :
    let t := after (exec (.delay 0#8) State.reset)
    t.rspValid = true ∧ { t with rst := true }.rspValid = false := by decide
/-- R32: in a SEND_BYTE the step after the first bit's seven events is 7, and the list has 57 entries. -/
theorem test_step_counts_events :
    (sendByte 0xA5#8).length = 57 ∧ readByte.length = 49 ∧ (sendByte 0xA5#8)[7]? = some (.lowAfter [.setBitidx 6#3]) ∧
    (phaseActs .sendCmd State.reset).length = 62 ∧ (phaseActs .readValue State.reset).length = 118 := by decide
/-- L2.8.2: reset in busStop after event 3: wire `00 11`, no Respond. -/
theorem test_reset_in_busStop :
    let s := { atPads .d0 .d0 [] with rst := true, op := 3#4, pos := .run .op 3 }
    (after (step s)).pads = (.d1, .d1) ∧ (after (step s)).trace = [] ∧ (after (step s)).pos = .idle := by decide
/-- R25, R32: the accepting edge of a request when single edges are observed. -/
theorem test_accepting_edge :
    let t := after (step { State.reset with reqValid := true, reqOp := 3#4, edgewise := true })
    t.pos = .run .op 0 ∧ t.op = 3#4 ∧ t.reqReady = false ∧ t.trace = [.accept 3#4 0#8] := by decide
/-- R156: after the last event of checkAck with ACKBIT = 1 the engine goes on to ACK_FAIL. -/
theorem test_engine_ack_fail :
    (after (tick { State.reset with op := 9#4, ackbit := true, pos := .run .checkAck 7 })).pos = .run .ackFailed 0 := by
  decide
/-- R154, R156: RETRY with ATTEMPT = 3 responds. -/
theorem test_engine_exhausted :
    response (tick { State.reset with op := 9#4, val := 0xFF#8, attempt := 3#2, pos := .run .retry 0 }) =
      some (0xFF#8, false) := by decide
/-- R35: a cycle of a wait. -/
theorem test_wait_cycle :
    (after (tick { State.reset with op := 1#4, arg := 9#8, dcnt := 5, pos := .run .op 0 })).dcnt = 4 := by decide

/-! ## The host's moves (R214) -/

/-- A reset in the third cycle cuts a BUS_START short: after the accepting edge and two events `rst` is 1, and the next
edge leaves the idle bus, no response, and an empty trace (R231). -/
theorem test_host_resets_in_request :
    let s := { State.reset.offer 0x2FF#12 with schedule := [⟨false, false⟩, ⟨false, false⟩, ⟨true, false⟩] }
    (after (step s)).busy = true ∧ (after (ticks 3 s)).rst = true ∧ (after (ticks 3 s)).pos = .run .op 2 ∧
    (after (ticks 4 s)).pads = (.d1, .d1) ∧ (after (ticks 4 s)).pos = .idle ∧ (after (ticks 4 s)).rst = false ∧
    (after (ticks 4 s)).rspValid = false ∧ (after (ticks 4 s)).trace = [] := by decide
/-- A delayed offer: nothing happens for two cycles, then the request is on the port, then it is accepted. -/
theorem test_host_offers_later :
    let s := { State.reset with
      hostProgram := [0x371#12], schedule := [⟨false, false⟩, ⟨false, false⟩, ⟨false, true⟩] }
    (after (ticks 2 s)).reqValid = false ∧ (after (ticks 3 s)).portWord = 0x371#12 ∧
    (after (ticks 3 s)).reqValid = true ∧ (after (ticks 3 s)).trace = [] ∧
    (after (step (after (ticks 3 s)))).trace.head? = some (.accept 3#4 0x71#8) := by decide
/-- L2.1.7: an offer made while a request runs is held until the core is ready, whatever the host has still to offer. -/
theorem test_host_holds_offer :
    let s := { State.reset with
      op := 6#4, pos := .run .op 0, reqValid := true, reqOp := 7#4, hostProgram := [0x800#12], edgewise := true }
    (after (step s)).offers = (true, 7#4, 0#8, [0x800#12]) := by decide

/-! ## The host's accessors (L1) -/

/-- A host procedure's value, the state left out. -/
def valueOf {α : Type} (r : Option (α × State)) : Option α :=
  match r with
  | some (a, _) => some a
  | none => none

/-- L1.4, as 90_conflicts.md C1 corrects it: 0x27, 0x10 is the raw value 10000. -/
theorem test_rawValue : rawValue 0x10#8 0x27#8 = 10000 := by decide
/-- L1.4: 10000 / 100 − 273.15 = −173.15. -/
theorem test_temperature : physical (-300) (fun n => n / 100 - 27315 / 100) (some 10000) = -17315 / 100 := by
  norm_num [physical]
/-- L1.5: 300 / 100 = 3. -/
theorem test_humidity : physical (-1) (fun n => n / 100) (some 300) = 3 := by norm_num [physical]
/-- L1.9. -/
theorem test_parameters_none :
    valueOf (readSensorparameters (scripted (false :: bits 0xFF#8 ++ bits 0x30#8))) = some 0x00#8 := by decide +kernel
/-- L1.6, P5: two requests, and no high byte. -/
theorem test_stale_status :
    (match read16 CommandCodes.cmdPresLb CommandCodes.cmdPresHb
        (scripted (false :: bits 0x64#8 ++ bits 0x25#8 ++ (false :: bits 0x02#8 ++ bits 0x73#8))) with
      | some (v, t) => v == none && t.trace.countP Event.isAccept == 2
      | none => false) = true := by decide +kernel

/-! ## Witnesses: the hypotheses of the obligations are met -/

/-- Every instruction is accepted after reset: the hypothesis of every completion statement. -/
theorem witness_accepted (i : Instr) : Accepted i State.reset := ⟨rfl, fun h => by cases h⟩
/-- Accepted while the slave holds SDA low: an op that drives SDA high nowhere, from a low line. -/
theorem witness_accepted_held :
    Accepted (.sendByte 0#8) { atPads .d0 .d0 [] with sdaHeld := true } ∧
    Accepted (.readByte 0#8) { atPads .rel .d0 [] with sdaHeld := true } := by
  constructor <;> exact ⟨rfl, by decide⟩
/-- ResetEdgeAbandonsRequest. -/
theorem witness_rst : { State.reset with rst := true, pos := .run .sendCmd 3 }.rst = true := by decide
/-- IdleStepEmitsNothing, in the cycle after a Respond. -/
theorem witness_idle :
    let s := { State.reset with rspPulse := true }
    s.reqReady = true ∧ s.reqValid = false ∧ s.contends = false := by decide
/-- RequestLatchedOnlyWhenReady: ready with an offer; not ready by BUSY; not ready by `rst`. -/
theorem witness_offer :
    (State.reset.offer 0x971#12).reqReady = true ∧ (State.reset.offer 0x971#12).reqValid = true ∧
    (State.reset.offer 0x971#12).contends = false ∧ { State.reset with pos := .run .op 0 }.reqReady = false ∧
    { State.reset with rst := true }.reqReady = false := by decide
/-- PortIgnoredWhileBusy: two offers, a busy step with a next state, and one with a fault. -/
theorem witness_busy :
    let s := { State.reset with op := 2#4, pos := .run .op 0 }
    (s.offer 0x971#12).withoutOffers = s.withoutOffers ∧ s.busy = true ∧ s.rst = false ∧ step s = .next (after (step s)) ∧
    step { s with sdaHeld := true } = .fault .contention := ⟨rfl, rfl, rfl, rfl, rfl⟩
/-- StepRunsDecodedRequest: a step that runs a request, one that does not, a table word that decodes. -/
theorem witness_runsRequest :
    (State.reset.offer 0x971#12).runsRequest = true ∧ State.reset.runsRequest = false ∧
    decodeTableWord 8 0x71 = some .cmdStatus := by decide
/-- ReadAByteRegisters, AttemptsAreMinOfFirstPass, ResultMatchesChecksum, SamplesOnlyReleasedLine: READ_A_BYTE answers a
next state. -/
theorem witness_next :
    exec (.readAByte 0#8) (scripted [true, true, true]) =
      .next (after (exec (.readAByte 0#8) (scripted [true, true, true]))) := rfl
/-- DecodeFunctionTable: the two ends of the reserved codes. -/
theorem witness_reserved : 0xA#4 ≤ (0xA#4 : BitVec 4) ∧ 0xA#4 ≤ (0xF#4 : BitVec 4) := by decide
/-- EncodeOfDecodeIsSame, for each format. DecodeOfEncodeIsSame's premise on the codes is `test_wf_accepts_default_codes`. -/
theorem witness_decode :
    decode .default (.word 0xF12#12) = .ok (.reservedF 0x12#8) ∧ decode .default (.byte 0x71#8) = .ok .cmdStatus := by decide
/-- FramingOnTheWire. -/
theorem witness_idle_pads : State.reset.pads = (.d1, .d1) := by decide
/-- ClockRisesPerProcedure, SdaChangesOnlyWhileClockLow: SCL driven low and high, SDA low. -/
theorem witness_scl :
    (atPads .d0 .d0 []).scl ≠ .rel ∧ (atPads .d0 .d1 []).scl = .d1 ∧ (atPads .d0 .d1 []).sda ≠ .d1 := by decide
/-- ReadAByteRegisters, AttemptsAreMinOfFirstPass, ResultMatchesChecksum, NeverAcknowledgedGivesSentinel: no attempt
acknowledged. -/
theorem witness_not_acknowledged :
    ∀ j < 4, attemptAcked (scripted [true, true, true, true]).sampleAt j = false := by decide +kernel
/-- AttemptsAreMinOfFirstPass, ResultMatchesChecksum: the first attempt passes. -/
theorem witness_first_passes :
    attemptPasses 0x71#8 (scripted (false :: bits 0x00#8 ++ bits 0x71#8)).sampleAt 0 = true := by decide +kernel
/-- The second is the first that passes, after one that is acknowledged and fails its checksum (L2.7.7). -/
theorem witness_second_passes :
    let f := (scripted (false :: bits 0x2C#8 ++ bits 0x00#8 ++ (false :: bits 0x2C#8 ++ bits 0xAD#8))).sampleAt
    attemptAcked f 0 = true ∧ attemptPasses 0x81#8 f 0 = false ∧ attemptPasses 0x81#8 f 1 = true := by decide +kernel
/-- The third is the first that passes (L2.7.8). -/
theorem witness_third_passes :
    let f := (scripted (true :: true :: false :: bits 0x10#8 ++ bits 0xB1#8)).sampleAt
    attemptPasses 0xA1#8 f 0 = false ∧ attemptPasses 0xA1#8 f 1 = false ∧ attemptPasses 0xA1#8 f 2 = true := by
  decide +kernel
/-- Only a fourth would pass: three attempts are made. -/
theorem witness_fourth_passes :
    let f := (scripted (true :: true :: true :: false :: bits 0x10#8 ++ bits 0xB1#8)).sampleAt
    (∀ j < 3, attemptPasses 0xA1#8 f j = false) ∧ attemptPasses 0xA1#8 f 3 = true := by decide +kernel
/-- ReadAByteRegisters: the last acknowledged attempt is the middle one of three (L2.7.9). -/
theorem witness_last_acknowledged :
    let f := (scripted (true :: false :: bits 0x05#8 ++ bits 0x00#8 ++ [true])).sampleAt
    attemptCount 0x11#8 f = 3 ∧ attemptAcked f 1 = true ∧ attemptAcked f 2 = false := by decide +kernel
/-- AttemptsAreMinOfFirstPass, last clause, at its upper end: the first attempt not acknowledged, the second fails its
checksum (L2.7.8). -/
theorem witness_second_fails :
    let f := (scripted (true :: false :: bits 0x10#8 ++ bits 0x00#8)).sampleAt
    attemptAcked f 1 = true ∧ (∀ j ≤ 1, attemptPasses 0xA1#8 f j = false) := by decide +kernel
/-- AttemptByHandEqualsAttempt, LoopbackReturnsByteSent, StaleStatusSkipsHighByte: ready, and SDA not held. -/
theorem witness_ready : State.reset.reqReady = true ∧ State.reset.sdaHeld = false := by decide
/-- InnerRegistersDoNotLeak: two different states that look the same. -/
theorem witness_visible :
    let s := { State.reset with shreg := 0xFF#8, ok := true, attempt := 2#2 }
    s.visible = State.reset.visible ∧ s ≠ State.reset := by decide
/-- ContentionStopsRequest: both sides, by a line driven high and by a request that drives it high. -/
theorem witness_contention :
    exec (.delay 0#8) { State.reset with sdaHeld := true } = .fault .contention ∧
    exec (.sendByte 1#8) { atPads .rel .d0 [] with sdaHeld := true } = .fault .contention ∧
    drivesSdaHigh (.sendByte 1#8) = true := ⟨rfl, rfl, rfl⟩
/-- StepIsRunOfEdges: a step with a next state, and one that stops. -/
theorem witness_edges :
    let s := State.reset.offer 0x700#12
    s.runsRequest = true ∧ s.dcnt = 0 ∧ step s = .next (after (step s)) ∧
    step { s with sdaHeld := true } = .fault .contention := ⟨rfl, rfl, rfl, rfl⟩
/-- EveryRequestEnds, and LegalPositionIsKept: a legal position in the middle of a READ_A_BYTE. -/
theorem witness_legal :
    let s := { State.reset with op := 9#4, arg := 0x71#8, cmd := 0x71#8, attempt := 1#2, pos := .run .sendCmd 2 }
    LegalPosition s ∧ s.busy = true ∧ s.rst = false ∧ (∀ c ∈ s.schedule, c.rst = false) ∧ s.sdaHeld = false := by
  refine ⟨⟨?_, fun h => absurd rfl h, fun _ => ⟨rfl, rfl⟩, fun h => (nomatch h), fun _ _ => ?_⟩, ?_⟩ <;> decide
/-- WaitTakesItsCycles: a DELAY of 5 units at its last cycle, whatever DELAY_FACTOR is. -/
theorem witness_wait :
    let s := { State.reset with op := 1#4, arg := 5#8, pos := .run .op 0 }
    s.pos = .run .op 0 ∧ s.dcnt = 0 ∧ s.rst = false ∧ s.contends = false ∧
    (phaseActs .op s)[0]? = some (.wait 5) ∧ 5 * Config.delayFactor ≤ 5 * Config.delayFactor ∧
    (∀ c ∈ s.schedule.take (5 * Config.delayFactor), c.rst = false) :=
  ⟨rfl, rfl, rfl, rfl, rfl, Nat.le_refl _, by simp [State.reset]⟩
/-- EachEventIsOneStep: the first event of a SEND_BYTE, with its register write, and one at a list's end. -/
theorem witness_event :
    let s := { State.reset with op := 4#4, arg := 1#8, pos := .run .op 0 }
    let t := { State.reset with op := 4#4, arg := 1#8, pos := .run .op 56 }
    s.dcnt = 0 ∧ s.rst = false ∧ s.contends = false ∧ (phaseActs .op s)[0]? = some (.lowAfter [.setBitidx 7#3]) ∧
    t.dcnt = 0 ∧ t.rst = false ∧ t.contends = false ∧ (phaseActs .op t)[56]? = some (.release .sda) := by decide
/-- SclDrivenIsKept, TraceFramedIsKept, FailedValueIsKept: a state inside a READ_A_BYTE meets them, and its step answers
a next state. -/
theorem witness_invariants :
    let s := { State.reset with
      op := 9#4, val := 0xFF#8, attempt := 1#2, pos := .run .checkAck 7, rtrace := [.accept 9#4 0#8] }
    SclDriven s ∧ TraceFramed s ∧ FailedValue s ∧ step s = .next (after (step s)) := by
  refine ⟨⟨by decide, ?_⟩, ⟨by decide, by decide⟩, ⟨rfl, rfl⟩, rfl⟩
  intro b hb; simp [State.trace] at hb
/-- StaleStatusSkipsHighByte: a first status of 0x02 (P5). -/
theorem witness_stale_status :
    let s := scripted (false :: bits 0x64#8 ++ bits 0x25#8 ++ (false :: bits 0x02#8 ++ bits 0x73#8))
    transactionResult s.codes.cmdStatus
      (fun k => s.sampleAt (attemptStart s.sampleAt (attemptCount s.codes.cmdPresLb s.sampleAt) + k)) ≠ 0x00#8 := by
  decide +kernel

/-- OfferHeldUntilAccepted: an offer that is taken, one that waits for a request, one that waits for `rst`. -/
theorem witness_held :
    let s := State.reset.offer 0x971#12
    s.reqValid = true ∧ s.reqReady = true ∧ tick s = .next (after (tick s)) ∧
    { s with pos := .run .op 0 }.reqReady = false ∧ { s with rst := true }.reqReady = false ∧
    tick { s with rst := true } = .next (after (tick { s with rst := true })) := ⟨rfl, rfl, rfl, rfl, rfl, rfl⟩
/-- HostMayOfferInAnyCycle: at once, and after two cycles. -/
theorem witness_offer_later :
    let s := { State.reset with hostProgram := [0x971#12], schedule := [⟨false, false⟩, ⟨false, false⟩, ⟨false, true⟩] }
    s.schedule = List.replicate 2 ⟨false, false⟩ ++ ⟨false, true⟩ :: [] ∧ s.reqReady = true ∧ s.reqValid = false ∧
    s.contends = false ∧ [(⟨false, true⟩ : HostCycle)] = List.replicate 0 ⟨false, false⟩ ++ ⟨false, true⟩ :: [] :=
  ⟨rfl, rfl, rfl, rfl, rfl⟩
/-- HostMayResetInAnyCycle: inside a READ_A_BYTE, with an offer in the cycle of the reset. -/
theorem witness_reset_later :
    let s := { State.reset with
      op := 9#4, pos := .run .sendCmd 3, schedule := [⟨false, true⟩, ⟨true, true⟩, ⟨true, false⟩] }
    s.schedule = [⟨false, true⟩] ++ ⟨true, true⟩ :: [⟨true, false⟩] ∧ (∀ c ∈ [(⟨false, true⟩ : HostCycle)], c.rst = false) ∧
    s.rst = false ∧ s.sdaHeld = false := by decide
/-- CommandCodesAreFixed: a step with a next state, with another code. -/
theorem witness_codes :
    let s := { State.reset with codes := { CommandCodes.default with cmdStatus := 0x5C#8 } }
    step s = .next (after (step s)) := rfl

end Sys2Proof.Tests
end

section
/-! PROOFS. A Wait cycle by cycle (10_state.md R35): the state inside a wait counts DCNT down, one cycle at each edge. -/

namespace Sys2Proof.Machine

/-- Contention is none of the host's doing (R23). -/
@[simp] theorem State.contends_hostMove (s : State) : s.hostMove.contends = s.contends := by
  simp [State.contends]

/-- If the schedule keeps `rst` low for `m + 1` cycles, it is low after the host's move, and stays so for `m` more. -/
theorem State.hostMove_rst_low (s : State) (m : Nat) (hs : ∀ c ∈ s.schedule.take (m + 1), c.rst = false) :
    s.hostMove.rst = false ∧ ∀ c ∈ s.hostMove.schedule.take m, c.rst = false := by
  rw [State.hostMove_rst, State.hostMove_schedule]
  cases hsch : s.schedule with
  | nil => simp
  | cons c cs =>
    rw [hsch, List.take_succ_cons, List.forall_mem_cons] at hs
    exact hs

/-! ## The host's moves go on during a wait -/

theorem State.offerNext_inWait (n d : Nat) (ph : Phase) (k : Nat) (s : State) :
    (s.inWait n d ph k).offerNext = s.offerNext.inWait n d ph k := by
  cases hv : s.reqValid with
  | true => rw [State.offerNext_held s hv]; exact State.offerNext_held _ hv
  | false =>
    cases hp : s.hostProgram with
    | nil => rw [State.offerNext_none s hp]; exact State.offerNext_none _ hp
    | cons w ws => simp [State.offerNext, State.inWait, hv, hp]

/-- The host moves in a wait as it would outside one (R214). -/
theorem State.hostMove_inWait (n d : Nat) (ph : Phase) (k : Nat) (s : State) :
    (s.inWait n d ph k).hostMove = s.hostMove.inWait n d ph k := by
  have hsch : (s.inWait n d ph k).schedule = s.schedule := rfl
  cases hs : s.schedule with
  | nil =>
    simp only [State.hostMove, hsch, hs]
    exact State.offerNext_inWait n d ph k { s with rst := false, schedule := [] }
  | cons c cs =>
    simp only [State.hostMove, hsch, hs]
    split
    · exact State.offerNext_inWait n d ph k { s with rst := c.rst, schedule := cs }
    · rfl

/-! ## The wait, edge by edge -/

/-- A Wait of `n` units at step `k` that has `d` cycles left: the step has advanced once there are none (R32, R35). -/
def State.waitLeft (n d : Nat) (ph : Phase) (k : Nat) (s : State) : State :=
  s.inWait n d ph (if d = 0 then k + 1 else k)

theorem State.hostMove_waitLeft (n d : Nat) (ph : Phase) (k : Nat) (s : State) :
    (s.waitLeft n d ph k).hostMove = s.hostMove.waitLeft n d ph k := State.hostMove_inWait n d ph _ s

/-- The edge that emits a Wait loads DCNT with all its cycles (R35). -/
theorem startWait_eq_waitLeft (ph : Phase) (k n : Nat) (s : State) :
    startWait ph k n s = s.waitLeft n (n * Config.delayFactor) ph k := by
  simp only [startWait, State.waitLeft, State.inWait]
  split <;> rfl

/-- One cycle of a wait is counted off (R35). -/
theorem runEdge_waitLeft (n d : Nat) (ph : Phase) (k : Nat) (s : State) :
    runEdge ph k (s.waitLeft n (d + 1) ph k) = s.waitLeft n d ph k := by
  cases d with
  | zero => exact runEdge_last ph k _ rfl
  | succ d => exact runEdge_count ph k d _ rfl

/-- One edge inside a wait, outside reset and contention. -/
theorem tick_waitLeft (n d : Nat) (ph : Phase) (k : Nat) (s : State) (hr : s.rst = false) (hc : s.contends = false) :
    tick (s.waitLeft n (d + 1) ph k) = .next (s.waitLeft n d ph k).hostMove := by
  rw [tick_run (s.waitLeft n (d + 1) ph k) ph k hr hc rfl, runEdge_waitLeft]

/-- After the edge that emitted the Wait, `m` more edges count off `m` cycles, if the schedule raises no `rst` at them. -/
theorem ticks_waitLeft (n m d : Nat) (ph : Phase) (k : Nat) (s : State) (hm : m ≤ d)
    (hs : ∀ c ∈ s.schedule.take m, c.rst = false) (hc : s.contends = false) :
    ticks m (s.waitLeft n d ph k).hostMove = .next (hostMoves (m + 1) (s.waitLeft n (d - m) ph k)) := by
  induction m generalizing s d with
  | zero => rfl
  | succ m ih =>
    obtain ⟨d, rfl⟩ : ∃ e, d = e + 1 := ⟨d - 1, by omega⟩
    obtain ⟨hr, htail⟩ := s.hostMove_rst_low m hs
    rw [State.hostMove_waitLeft, ticks_succ_next _ _ _ (tick_waitLeft n d ph k _ hr (by simpa using hc)),
      ih d _ (by omega) htail (by simpa using hc), Nat.add_sub_add_right, ← State.hostMove_waitLeft]
    rfl

/-- Settles O42: the first edge loads DCNT with the wait's cycles, and the further edges count them off one by one. -/
theorem waitTakesItsCycles : Obligations.WaitTakesItsCycles := by
  intro s ph k n m hp hd hr hs hc ha hm
  have hstart : tick s = .next (s.waitLeft n (n * Config.delayFactor) ph k).hostMove := by
    rw [tick_run s ph k hr hc hp, runEdge_step ph k _ s hd ha, runStep, startWait_eq_waitLeft]
  have hdone : n * Config.delayFactor - m = 0 ↔ m = n * Config.delayFactor := by omega
  rw [Nat.add_comm 1 m, ticks_succ_next m s _ hstart, ticks_waitLeft n m _ ph k s hm hs hc, State.waitLeft]
  simp only [hdone]

end Sys2Proof.Machine
end

section
/-! PROOFS. No request writes the model's settings, and no step at all writes the command codes among them (log 9). -/

namespace Sys2Proof.Machine

/-- Accepting a request leaves the settings alone. -/
theorem State.start_settings (op : BitVec 4) (arg : Byte) (s : State) : (s.start op arg).settings = s.settings := by
  simp [State.settings]

theorem runActs_settings (as : List Act) (s : State) : (runActs as s).settings = s.settings := by
  obtain ⟨-, -, -, -, -, -, -, -, -, -, -, -, h⟩ := runActs_keeps as s
  exact h

theorem afterAttempts_settings (s : State) (f : Nat → Level) (n : Nat) :
    (afterAttempts s f n).settings = s.settings := by
  cases n <;> rfl

/-- A READ_A_BYTE leaves the settings alone, whatever number of attempts it takes (R155). -/
theorem readRegister_settings (s : State) : (readRegister s).settings = s.settings := by
  rw [readRegister_spec]
  exact afterAttempts_settings (enterEngine s) _ _

/-- No instruction writes the settings between its accepting edge and its Respond. -/
theorem bodyOf_settings (i : Instr) (s : State) : (bodyOf i s).settings = s.settings := by
  cases i with
  | delay n => exact runActs_settings (busDelay (delayUnits s.arg)) s
  | busStart a => exact runActs_settings busStart s
  | busStop a => exact runActs_settings busStop s
  | sendByte v => exact runActs_settings (sendByte s.arg) s
  | readByte a => exact runActs_settings readByte s
  | checkAck a => exact runActs_settings checkAck s
  | sendAck a => exact runActs_settings sendAck s
  | sendNak a => exact runActs_settings sendNak s
  | reserved0 a | reservedA a | reservedB a | reservedC a | reservedD a | reservedE a | reservedF a => rfl
  | _ => exact readRegister_settings s

/-- A request, run or not accepted, leaves the settings alone. -/
theorem exec_keeps_settings (i : Instr) (s t : State) (h : exec i s = .next t) : t.settings = s.settings := by
  obtain ⟨-, rfl⟩ | ⟨-, rfl⟩ := exec_next_cases i s t h
  · rfl
  · rw [bodyOf_settings, State.start_settings]

theorem codes_of_settings {s t : State} (h : t.settings = s.settings) : t.codes = s.codes :=
  congrArg (fun p => p.2.2.2) h

/-- No clock edge writes the command codes, a reset edge neither (log 9). -/
theorem tick_keeps_codes (s t : State) (h : tick s = .next t) : t.codes = s.codes := by
  obtain ⟨-, rfl⟩ | ⟨-, -, -, -, rfl⟩ | ⟨-, -, -, -, rfl⟩ | ⟨ph, k, -, -, -, rfl⟩ := tick_next_cases s t h
  · rw [State.hostMove_codes, State.takeReset_codes]
  · rw [State.hostMove_codes, State.accept_codes]
  · rw [State.hostMove_codes, State.idleEdge_codes]
  · rw [State.hostMove_codes]
    exact codes_of_settings (runEdge_keeps ph k s).2

/-- What a step can do: run the request on the port whole, or make one clock edge (R57; log 6). -/
theorem step_next_cases (s t : State) (h : step s = .next t) :
    (s.runsRequest = true ∧ exec (decodeRequest s.portWord) s = .next t) ∨
    (s.runsRequest = false ∧ tick s = .next t) := by
  unfold step at h
  split at h
  · rename_i hr; exact .inl ⟨hr, h⟩
  · rename_i hr; exact .inr ⟨by simpa using hr, h⟩

/-- Settles O53: a step is a whole request or one clock edge, and neither writes the command codes. -/
theorem commandCodesAreFixed : Obligations.CommandCodesAreFixed := by
  intro s t h
  obtain ⟨-, hexec⟩ | ⟨-, htick⟩ := step_next_cases s t h
  · exact codes_of_settings (exec_keeps_settings _ s t hexec)
  · exact tick_keeps_codes s t htick

end Sys2Proof.Machine
end

section
/-! PROOFS. What the core does on the bus between an Accept and a Respond (10_state.md R28): one relation, kept by every
action, every engine move and every edge, from which the invariants and the shape of a request are read off. -/

namespace Sys2Proof.Machine

/-- `t` is reached from `s` by making the events `es` on the bus: the trace grows by them, each Sample uses up one draw,
SCL stays driven if it was (R22), and what belongs to Accept, Respond, the host and the settings is untouched. -/
structure BusRun (es : List Event) (s t : State) : Prop where
  sclDriven : s.scl ≠ .rel → t.scl ≠ .rel
  rtrace : t.rtrace = es.reverse ++ s.rtrace := by rfl
  onBus : ∀ e ∈ es, e.onBus = true := by simp [Event.onBus]
  sclNotSampled : ∀ b, Event.sample .scl b ∉ es := by simp
  op : t.op = s.op := by rfl
  arg : t.arg = s.arg := by rfl
  rspPulse : t.rspPulse = s.rspPulse := by rfl
  draws : t.draws = s.draws.drop (es.countP Event.isSample) := by rfl
  drawIx : t.drawIx = s.drawIx + es.countP Event.isSample := by rfl
  hostSide : t.hostSide = s.hostSide := by rfl
  settings : t.settings = s.settings := by rfl

theorem BusRun.refl (s : State) : BusRun [] s s where sclDriven := id

/-- Bus runs compose, their events one after the other. -/
theorem BusRun.trans {es fs : List Event} {s t u : State} (h : BusRun es s t) (k : BusRun fs t u) :
    BusRun (es ++ fs) s u where
  rtrace := by rw [k.rtrace, h.rtrace, List.reverse_append, List.append_assoc]
  onBus e he := (List.mem_append.mp he).elim (h.onBus e) (k.onBus e)
  sclNotSampled b hb := (List.mem_append.mp hb).elim (h.sclNotSampled b) (k.sclNotSampled b)
  sclDriven hs := k.sclDriven (h.sclDriven hs)
  op := k.op.trans h.op
  arg := k.arg.trans h.arg
  rspPulse := k.rspPulse.trans h.rspPulse
  draws := by rw [k.draws, h.draws, List.drop_drop, List.countP_append]
  drawIx := by rw [k.drawIx, h.drawIx, List.countP_append, Nat.add_assoc]
  hostSide := k.hostSide.trans h.hostSide
  settings := k.settings.trans h.settings

/-- The position is not on the bus (R32). -/
theorem BusRun.atStep {es : List Event} {s t : State} (h : BusRun es s t) (ph : Phase) (k : Nat) :
    BusRun es s (t.atStep ph k) := { h with }

/-! ## The actions -/

/-- Whether an action releases SCL: no procedure has such an action (R22). -/
def Act.releasesScl : Act → Bool
  | .release .scl => true
  | .release .sda => false
  | .drive _ _ => false
  | .driveBit _ => false
  | .wait _ => false
  | .sampleBit => false
  | .sampleAck => false
  | .lowAfter _ => false

theorem Drive.ofLevel_ne_rel (b : Level) : Drive.ofLevel b ≠ .rel := by cases b <;> simp [Drive.ofLevel]

/-- One action that does not release SCL makes one event on the bus (R12). -/
theorem Act.run_busRun (a : Act) (s : State) (ha : a.releasesScl = false) : ∃ e, BusRun [e] s (a.run s) := by
  cases a with
  | drive l b =>
    cases l with
    | sda => exact ⟨.drive .sda b, { sclDriven := id }⟩
    | scl => exact ⟨.drive .scl b, { sclDriven := fun _ => Drive.ofLevel_ne_rel b }⟩
  | driveBit v => exact ⟨.drive .sda (bitOf v s.bitidx), { sclDriven := id }⟩
  | release l =>
    cases l with
    | sda => exact ⟨.release .sda, { sclDriven := id }⟩
    | scl => cases ha
  | wait n => exact ⟨.wait n, { sclDriven := id }⟩
  | sampleBit => exact ⟨.sample .sda s.lvlSda, { sclDriven := id, draws := (List.drop_one).symm }⟩
  | sampleAck => exact ⟨.sample .sda s.lvlSda, { sclDriven := id, draws := (List.drop_one).symm }⟩
  | lowAfter ws =>
    obtain ⟨b, sh, v, c, h⟩ := runWrites_writes ws s
    rw [Act.run, h]
    exact ⟨.drive .scl false, { sclDriven := fun _ => Drive.ofLevel_ne_rel false }⟩

/-- A list of actions makes one event on the bus for each entry (R12, R32). -/
theorem runActs_busRun (as : List Act) (s : State) (h : ∀ a ∈ as, a.releasesScl = false) :
    ∃ es, es.length = as.length ∧ BusRun es s (runActs as s) := by
  induction as generalizing s with
  | nil => exact ⟨[], rfl, .refl s⟩
  | cons a as ih =>
    obtain ⟨ha, has⟩ := List.forall_mem_cons.mp h
    obtain ⟨e, he⟩ := a.run_busRun s ha
    obtain ⟨es, hlen, hes⟩ := ih (a.run s) has
    exact ⟨e :: es, by simp [hlen], he.trans hes⟩

/-- No phase's list releases SCL (R22). -/
theorem phaseActs_releasesScl (ph : Phase) (s : State) : ∀ a ∈ phaseActs ph s, a.releasesScl = false := by
  have hall : (phaseActs ph s).all (fun a => !a.releasesScl) = true := by
    cases ph with
    | op => unfold phaseActs opActs; cases decodeOp s.op <;> rfl
    | _ => rfl
  intro a ha
  simpa using List.all_eq_true.mp hall a ha

/-- Running a phase's list is a bus run with one event for each entry (R32). -/
theorem phaseActs_busRun (ph : Phase) (s t : State) :
    ∃ es, es.length = (phaseActs ph s).length ∧ BusRun es t (runActs (phaseActs ph s) t) :=
  runActs_busRun _ t (phaseActs_releasesScl ph s)

/-! ## The engine -/

theorem enterEngine_busRun (s : State) : BusRun [] s (enterEngine s) where sclDriven := id

theorem countAttempt_busRun (s : State) : BusRun [] s (countAttempt s) where sclDriven := id

theorem clearOk_busRun (s : State) : BusRun [] s (clearOk s) where sclDriven := id

theorem validate_busRun (s : State) : BusRun [] s (validate s) where sclDriven := id

/-- One attempt is a bus run, acknowledged or not (R151, R152). -/
theorem attempt_busRun (s : State) : ∃ es, BusRun es s (attempt s) := by
  obtain ⟨cmd, -, hcmd⟩ := phaseActs_busRun .sendCmd s (countAttempt s)
  obtain ⟨ack, -, hack⟩ := phaseActs_busRun .checkAck s (runActs (commandPhase s.cmd) (countAttempt s))
  have hhead := ((countAttempt_busRun s).trans hcmd).trans hack
  simp only [phaseActs] at hhead
  unfold attempt
  generalize runActs checkAck (runActs (commandPhase s.cmd) (countAttempt s)) = t at hhead
  cases hb : t.ackbit with
  | true =>
    obtain ⟨stop, -, hstop⟩ := phaseActs_busRun .ackFailed s t
    exact ⟨_, by simpa [hb, phaseActs] using (hhead.trans hstop).trans (clearOk_busRun _)⟩
  | false =>
    obtain ⟨rd, -, hrd⟩ := phaseActs_busRun .readValue s t
    exact ⟨_, by simpa [hb, phaseActs] using (hhead.trans hrd).trans (validate_busRun _)⟩

/-- The attempts of a call are a bus run (R154). -/
theorem attempts_busRun (n : Nat) (s : State) : ∃ es, BusRun es s (attempts n s) := by
  induction n generalizing s with
  | zero => exact ⟨[], .refl s⟩
  | succ n ih =>
    obtain ⟨es, hes⟩ := attempt_busRun s
    obtain ⟨fs, hfs⟩ := ih (attempt s)
    rw [attempts]
    split
    · exact ⟨es, hes⟩
    · exact ⟨es ++ fs, hes.trans hfs⟩

/-! ## Whole requests -/

/-- Between its accepting edge and its Respond an instruction runs one list of actions, none for a reserved op, or the
engine (R73, R100 to R133, R155). -/
theorem bodyOf_cases (i : Instr) (s : State) :
    (∃ as d e, bodyOf i s = (runActs as s).respond d e ∧ ∀ a ∈ as, a.releasesScl = false) ∨
    bodyOf i s = readRegister s := by
  have hlist : ∀ {as d e}, bodyOf i s = (runActs as s).respond d e → as.all (fun a => !a.releasesScl) = true →
      ∃ as d e, bodyOf i s = (runActs as s).respond d e ∧ ∀ a ∈ as, a.releasesScl = false :=
    fun h hall => ⟨_, _, _, h, by simpa using hall⟩
  cases i with
  | delay | busStart | busStop | sendByte | readByte | checkAck | sendAck | sendNak => exact .inl (hlist rfl rfl)
  | reserved0 | reservedA | reservedB | reservedC | reservedD | reservedE | reservedF =>
    exact .inl (hlist (as := []) rfl rfl)
  | _ => exact .inr rfl

/-- Every instruction makes a bus run after its accepting edge, and ends it with one Respond (R26, R28). -/
theorem bodyOf_busRun (i : Instr) (s : State) :
    ∃ es u d e, BusRun es s u ∧ bodyOf i s = u.respond d e := by
  obtain ⟨as, d, e, h, has⟩ | h := bodyOf_cases i s
  · obtain ⟨es, -, hes⟩ := runActs_busRun as s has
    exact ⟨es, _, d, e, hes, h⟩
  · obtain ⟨es, hes⟩ := attempts_busRun Config.nAttempts (enterEngine s)
    exact ⟨_, _, _, _, (enterEngine_busRun s).trans hes, h⟩

/-! ## One edge of a running request -/

theorem finishPhase_op (s : State) : finishPhase .op s = finishOp s := rfl

theorem finishPhase_checkAck (s : State) :
    finishPhase .checkAck s = if s.ackbit then s.atStep .ackFailed 0 else s.atStep .readValue 0 := rfl

theorem finishPhase_validate (s : State) :
    finishPhase .validate s =
      if (validate s).ok then (validate s).atStep .accept 0 else (validate s).atStep .retry 0 := rfl

theorem finishPhase_retry (s : State) :
    finishPhase .retry s =
      if s.attempt.toNat < Config.nAttempts then s.atStep .attempt 0 else s.respond s.val false := rfl

/-- The end of a phase leads to the first step of the next phase, after the engine's register writes alone, or to the
Respond (R156). -/
theorem finishPhase_cases (ph : Phase) (s : State) :
    (∃ ph' u, BusRun [] s u ∧ finishPhase ph s = u.atStep ph' 0) ∨ (∃ d e, finishPhase ph s = s.respond d e) := by
  cases ph with
  | op =>
    rw [finishPhase_op, finishOp]
    cases decodeOp s.op with
    | readAByte => exact .inl ⟨_, _, enterEngine_busRun s, rfl⟩
    | _ => exact .inr ⟨_, _, rfl⟩
  | attempt => exact .inl ⟨_, _, countAttempt_busRun s, rfl⟩
  | sendCmd => exact .inl ⟨_, _, .refl s, rfl⟩
  | checkAck =>
    rw [finishPhase_checkAck]
    split <;> exact .inl ⟨_, _, .refl s, rfl⟩
  | readValue => exact .inl ⟨_, _, .refl s, rfl⟩
  | ackFailed => exact .inl ⟨_, _, clearOk_busRun s, rfl⟩
  | validate =>
    rw [finishPhase_validate]
    split <;> exact .inl ⟨_, _, validate_busRun s, rfl⟩
  | accept => exact .inr ⟨_, _, rfl⟩
  | retry =>
    rw [finishPhase_retry]
    split
    · exact .inl ⟨_, _, .refl s, rfl⟩
    · exact .inr ⟨_, _, rfl⟩

/-- An edge of a running request is a bus run after which the request still runs, or the Respond (R26, R28, R32). -/
theorem runEdge_cases (ph : Phase) (k : Nat) (s : State) (hp : s.pos = .run ph k) :
    (∃ es, BusRun es s (runEdge ph k s) ∧ (runEdge ph k s).busy = true) ∨
    (∃ d e, runEdge ph k s = s.respond d e) := by
  have hnone : ∀ d, BusRun [] s { s with dcnt := d } := fun d => { sclDriven := id }
  match hd : s.dcnt with
  | d + 2 =>
    rw [runEdge_count ph k d s hd]
    exact .inl ⟨[], hnone _, by simp [State.busy, hp]⟩
  | 1 =>
    rw [runEdge_last ph k s hd]
    exact .inl ⟨[], (hnone 0).atStep ph (k + 1), rfl⟩
  | 0 =>
    cases ha : (phaseActs ph s)[k]? with
    | some a =>
      rw [runEdge_step ph k a s hd ha]
      by_cases hw : ∃ n, a = .wait n
      · obtain ⟨n, rfl⟩ := hw
        rw [runStep, startWait_eq_waitLeft]
        exact .inl ⟨[.wait n], { sclDriven := id }, rfl⟩
      · obtain ⟨e, he⟩ := a.run_busRun s (phaseActs_releasesScl ph s a (List.mem_of_getElem? ha))
        rw [runStep_act ph k a s (fun n h => hw ⟨n, h⟩)]
        exact .inl ⟨[e], he.atStep ph (k + 1), rfl⟩
    | none =>
      rw [runEdge_finish ph k s hd ha]
      rcases finishPhase_cases ph s with ⟨ph', u, hu, h⟩ | h
      · rw [h]; exact .inl ⟨[], hu.atStep ph' 0, rfl⟩
      · exact .inr h

end Sys2Proof.Machine
end

section
/-! PROOFS. The step invariants on SCL, on the trace and on the sequencer position (10_state.md R22, R26 to R28, R32, R35). -/

namespace Sys2Proof.Machine

theorem mem_trace (e : Event) (s : State) : e ∈ s.trace ↔ e ∈ s.rtrace := List.mem_reverse

/-- A step that runs a request finds it accepted and runs its body (R25). -/
theorem step_runsRequest_next (s t : State) (hr : s.runsRequest = true)
    (h : exec (decodeRequest s.portWord) s = .next t) :
    s.busy = false ∧ t = bodyOf (decodeRequest s.portWord)
      (s.start (opCodeOf (decodeRequest s.portWord)) (argByteOf s.codes (decodeRequest s.portWord))) := by
  simp only [State.runsRequest, Bool.and_eq_true] at hr
  obtain ⟨⟨-, hready⟩, -⟩ := hr
  rcases exec_next_cases _ s t h with ⟨hn, -⟩ | ⟨-, ht⟩
  · rw [hn] at hready; cases hready
  · exact ⟨(s.busy_eq_false_iff).mpr ((s.reqReady_iff).mp hready).1, ht⟩

/-- What a step can do to lines, trace and position: a reset; an idle edge; an accepting edge; an edge of the running
request; or a request run whole, from its accepting edge through a bus run to its Respond. The first four leave the host a
move (R57, R214). -/
theorem step_busRun_cases (s t : State) (h : step s = .next t) :
    t = s.takeReset.hostMove ∨
    (s.busy = false ∧ t = s.idleEdge.hostMove) ∨
    (s.busy = false ∧ t = (s.accept s.reqOp s.reqArg).hostMove) ∨
    (∃ ph k, s.pos = .run ph k ∧ t = (runEdge ph k s).hostMove) ∨
    (s.busy = false ∧ ∃ op arg es u d e, BusRun es (s.start op arg) u ∧ t = u.respond d e) := by
  rcases step_next_cases s t h with ⟨hr, hexec⟩ | ⟨-, htick⟩
  · obtain ⟨hb, ht⟩ := step_runsRequest_next s t hr hexec
    obtain ⟨es, u, d, e, hu, hbody⟩ := bodyOf_busRun (decodeRequest s.portWord)
      (s.start (opCodeOf (decodeRequest s.portWord)) (argByteOf s.codes (decodeRequest s.portWord)))
    exact .inr (.inr (.inr (.inr ⟨hb, _, _, es, u, d, e, hu, ht.trans hbody⟩)))
  · obtain ⟨-, ht⟩ | ⟨-, -, hp, -, ht⟩ | ⟨-, -, hp, -, ht⟩ | ⟨ph, k, -, -, hp, ht⟩ := tick_next_cases s t htick
    · exact .inl ht
    · exact .inr (.inr (.inl ⟨(s.busy_eq_false_iff).mpr hp, ht⟩))
    · exact .inr (.inl ⟨(s.busy_eq_false_iff).mpr hp, ht⟩)
    · exact .inr (.inr (.inr (.inl ⟨ph, k, hp, ht⟩)))

/-! ## SCL driven -/

/-- The invariant on SCL, read off the newest-first trace. -/
theorem sclDriven_iff (s : State) : SclDriven s ↔ s.scl ≠ .rel ∧ ∀ b, Event.sample .scl b ∉ s.rtrace := by
  simp only [SclDriven, mem_trace]

/-- A bus run keeps SCL driven and takes no Sample of it (R22). -/
theorem BusRun.sclDriven_of {es : List Event} {s t : State} (h : BusRun es s t) (hs : SclDriven s) : SclDriven t := by
  rw [sclDriven_iff] at hs ⊢
  obtain ⟨hscl, htr⟩ := hs
  refine ⟨h.sclDriven hscl, fun b hb => ?_⟩
  rw [h.rtrace, List.mem_append, List.mem_reverse] at hb
  exact hb.elim (h.sclNotSampled b) (htr b)

theorem sclDriven_respond (d : Byte) (e : Bool) (s : State) (hs : SclDriven s) : SclDriven (s.respond d e) := by
  simpa [sclDriven_iff] using hs

theorem sclDriven_start (op : BitVec 4) (arg : Byte) (s : State) (hs : SclDriven s) : SclDriven (s.start op arg) := by
  simpa [sclDriven_iff] using hs

theorem sclDriven_hostMove (s : State) : SclDriven s.hostMove ↔ SclDriven s := by simp [sclDriven_iff]

/-- Settles O43: a reset drives SCL high and clears the trace, and every other step makes only bus runs, which keep SCL
driven, and Accept and Respond, which touch no line. -/
theorem sclDrivenIsKept : Obligations.SclDrivenIsKept := by
  intro s t hs h
  obtain rfl | ⟨-, rfl⟩ | ⟨-, rfl⟩ | ⟨ph, k, hp, rfl⟩ | ⟨-, op, arg, es, u, d, e, hu, rfl⟩ := step_busRun_cases s t h
  · simp [sclDriven_iff]
  · rw [sclDriven_hostMove]; exact hs
  · rw [sclDriven_hostMove]
    simpa [sclDriven_iff] using hs
  · rw [sclDriven_hostMove]
    rcases runEdge_cases ph k s hp with ⟨es, hrun, -⟩ | ⟨d, e, hrun⟩
    · exact hrun.sclDriven_of hs
    · rw [hrun]; exact sclDriven_respond d e s hs
  · exact sclDriven_respond d e u (hu.sclDriven_of (sclDriven_start op arg s hs))

/-! ## The trace framed -/

/-- The trace grows by an event at its end (R28). -/
theorem trace_of_rtrace_cons {s t : State} {e : Event} (h : t.rtrace = e :: s.rtrace) : t.trace = s.trace ++ [e] :=
  trace_of_rtrace h

theorem BusRun.trace {es : List Event} {s t : State} (h : BusRun es s t) : t.trace = s.trace ++ es :=
  trace_of_rtrace h.rtrace

/-- The events of a bus run keep the trace one in which a request is running (R28). -/
theorem BusRun.traceBusy {es : List Event} {s t : State} (h : BusRun es s t)
    (hs : traceBusy false s.trace = some true) : traceBusy false t.trace = some true := by
  rw [h.trace, traceBusy_append, hs]
  exact traceBusy_onBus es h.onBus

/-- A Respond ends the running request (R26). -/
theorem traceBusy_respond (d : Byte) (e : Bool) (s : State) (hs : traceBusy false s.trace = some true) :
    traceBusy false (s.respond d e).trace = some false := by
  rw [trace_of_rtrace_cons (s.respond_rtrace d e), traceBusy_append, hs]; rfl

/-- An Accept begins a request where none runs (R28). -/
theorem traceBusy_accept {op : BitVec 4} {arg : Byte} {s t : State} (h : t.rtrace = .accept op arg :: s.rtrace)
    (hs : traceBusy false s.trace = some false) : traceBusy false t.trace = some true := by
  rw [trace_of_rtrace_cons h, traceBusy_append, hs]; rfl

theorem traceFramed_hostMove (s : State) : TraceFramed s.hostMove ↔ TraceFramed s := by
  simp [TraceFramed, State.trace]

theorem traceFramed_respond (d : Byte) (e : Bool) (s : State) (hs : traceBusy false s.trace = some true) :
    TraceFramed (s.respond d e) := ⟨traceBusy_respond d e s hs, fun _ => rfl⟩

/-- Settles O44: an Accept stands only where no request runs, a bus run keeps it running, and a Respond ends it together
with BUSY. -/
theorem traceFramedIsKept : Obligations.TraceFramedIsKept := by
  intro s t ⟨htr, hpulse⟩ h
  obtain rfl | ⟨hb, rfl⟩ | ⟨hb, rfl⟩ | ⟨ph, k, hp, rfl⟩ | ⟨hb, op, arg, es, u, d, e, hu, rfl⟩ :=
    step_busRun_cases s t h
  · rw [traceFramed_hostMove]
    exact ⟨rfl, nofun⟩
  · rw [traceFramed_hostMove]
    exact ⟨htr, nofun⟩
  · rw [traceFramed_hostMove]
    exact ⟨traceBusy_accept (s.accept_rtrace _ _) (hb ▸ htr), nofun⟩
  · rw [traceFramed_hostMove]
    have hbusy : s.busy = true := by rw [State.busy, hp]
    rw [hbusy] at htr hpulse
    rcases runEdge_cases ph k s hp with ⟨es, hrun, hb⟩ | ⟨d, e, hrun⟩
    · exact ⟨hb ▸ hrun.traceBusy htr, fun hpul => nomatch hpulse (hrun.rspPulse ▸ hpul)⟩
    · rw [hrun]; exact traceFramed_respond d e s htr
  · have hstart := traceBusy_accept (s.start_rtrace op arg) (hb ▸ htr)
    exact traceFramed_respond d e u (hu.traceBusy hstart)

/-! ## The position legal -/

/-- What the engine's registers hold in a phase: CMD is the argument of a READ_A_BYTE, and ATTEMPT is below N_ATTEMPTS
before an attempt and counts it from its start on (R156, R157). -/
def EngineLegal (ph : Phase) (s : State) : Prop :=
  (ph ≠ .op → decodeOp s.op = .readAByte ∧ s.cmd = s.arg) ∧
  (ph = .attempt → s.attempt.toNat < Config.nAttempts) ∧
  (ph ≠ .op → ph ≠ .attempt → 1 ≤ s.attempt.toNat)

/-- Legality of a running position: the step within the list, DCNT within its Wait, the engine's registers in order. -/
theorem legalPosition_run (s : State) (ph : Phase) (k : Nat) (hp : s.pos = .run ph k) :
    LegalPosition s ↔ k ≤ (phaseActs ph s).length ∧
      (s.dcnt ≠ 0 → ∃ n, (phaseActs ph s)[k]? = some (.wait n) ∧ s.dcnt ≤ n * Config.delayFactor) ∧
      EngineLegal ph s := by
  simp only [LegalPosition, hp, EngineLegal]

theorem legalPosition_idle (s : State) (hp : s.pos = .idle) : LegalPosition s ↔ s.dcnt = 0 := by
  simp only [LegalPosition, hp]

/-- A position is legal by the list and the engine's registers of a state with the same OP, ARG, CMD and ATTEMPT. -/
theorem legalPosition_of_registers {s t : State} {ph : Phase} {k : Nat} (hp : t.pos = .run ph k)
    (hregs : t.op = s.op ∧ t.arg = s.arg ∧ t.cmd = s.cmd ∧ t.attempt = s.attempt)
    (hk : k ≤ (phaseActs ph s).length)
    (hwait : t.dcnt ≠ 0 → ∃ n, (phaseActs ph s)[k]? = some (.wait n) ∧ t.dcnt ≤ n * Config.delayFactor)
    (he : EngineLegal ph s) : LegalPosition t := by
  obtain ⟨ho, ha, hc, hn⟩ := hregs
  rw [legalPosition_run t ph k hp, phaseActs_congr ph s t ho ha hc]
  refine ⟨hk, hwait, ?_⟩
  rwa [EngineLegal, ho, ha, hc, hn]

/-- The first step of a phase is legal with no wait running and the engine's registers in order. -/
theorem legalPosition_atFirst (s : State) (ph : Phase) (hd : s.dcnt = 0) (he : EngineLegal ph s) :
    LegalPosition (s.atStep ph 0) :=
  legalPosition_of_registers rfl ⟨rfl, rfl, rfl, rfl⟩ (Nat.zero_le _) (fun h => absurd hd h) he

theorem legalPosition_hostMove (s : State) (hs : LegalPosition s) : LegalPosition s.hostMove := by
  cases hp : s.pos with
  | idle =>
    rw [legalPosition_idle s hp] at hs
    exact (legalPosition_idle _ (s.hostMove_pos.trans hp)).mpr (s.hostMove_dcnt.trans hs)
  | run ph k =>
    obtain ⟨hk, hwait, he⟩ := (legalPosition_run s ph k hp).mp hs
    exact legalPosition_of_registers (s.hostMove_pos.trans hp)
      ⟨s.hostMove_op, s.hostMove_arg, s.hostMove_cmd, s.hostMove_attempt⟩ hk (s.hostMove_dcnt ▸ hwait) he

theorem Act.run_dcnt (a : Act) (s : State) (h : s.dcnt = 0) : (a.run s).dcnt = 0 := by
  cases a with
  | drive l b => cases l <;> exact h
  | release l => cases l <;> exact h
  | lowAfter ws =>
    obtain ⟨b, sh, v, c, hw⟩ := runWrites_writes ws s
    rw [Act.run, hw]; exact h
  | wait n => rfl
  | _ => exact h

/-- The end of a phase leads to a legal position (R156). -/
theorem legalPosition_finishPhase (ph : Phase) (s : State) (hd : s.dcnt = 0) (he : EngineLegal ph s) :
    LegalPosition (finishPhase ph s) := by
  have hrespond : ∀ d e, LegalPosition (s.respond d e) := fun d e => (legalPosition_idle _ rfl).mpr hd
  have hnext : ∀ ph', ph' ≠ .attempt → ph ≠ .op → ph ≠ .attempt → EngineLegal ph' s := by
    intro ph' h1 h2 h3
    obtain ⟨hcmd, -, hcount⟩ := he
    exact ⟨fun _ => hcmd h2, fun h => absurd h h1, fun _ _ => hcount h2 h3⟩
  cases ph with
  | op =>
    rw [finishPhase_op, finishOp]
    cases hop : decodeOp s.op with
    | readAByte =>
      exact legalPosition_atFirst (enterEngine s) _ hd
        ⟨fun _ => ⟨hop, rfl⟩, fun _ => Nat.zero_lt_succ 2, fun _ h => absurd rfl h⟩
    | _ => exact hrespond _ _
  | attempt =>
    obtain ⟨hcmd, hlt, -⟩ := he
    have hlt : s.attempt.toNat < 3 := hlt rfl
    refine legalPosition_atFirst (countAttempt s) _ hd
      ⟨fun _ => hcmd (by simp), nofun, fun _ _ => ?_⟩
    rw [countAttempt_attempt, BitVec.toNat_add_of_lt (by simp; omega)]
    exact Nat.le_add_left _ _
  | sendCmd => exact legalPosition_atFirst s _ hd (hnext _ nofun nofun nofun)
  | checkAck =>
    rw [finishPhase_checkAck]
    split <;> exact legalPosition_atFirst s _ hd (hnext _ nofun nofun nofun)
  | readValue => exact legalPosition_atFirst s _ hd (hnext _ nofun nofun nofun)
  | ackFailed => exact legalPosition_atFirst (clearOk s) _ hd (hnext _ nofun nofun nofun)
  | validate =>
    rw [finishPhase_validate]
    split <;> exact legalPosition_atFirst (validate s) _ hd (hnext _ nofun nofun nofun)
  | accept => exact hrespond _ _
  | retry =>
    rw [finishPhase_retry]
    split
    · rename_i hlt
      obtain ⟨hcmd, -, -⟩ := he
      exact legalPosition_atFirst s _ hd
        ⟨fun _ => hcmd nofun, fun _ => hlt, fun _ h => absurd rfl h⟩
    · exact hrespond _ _

/-- A Wait begins within the list that holds it, with DCNT at its cycles (R35). -/
theorem legalPosition_startWait (ph : Phase) (k n : Nat) (s : State) (ha : (phaseActs ph s)[k]? = some (.wait n))
    (he : EngineLegal ph s) : LegalPosition (startWait ph k n s) := by
  obtain ⟨hk, -⟩ := List.getElem?_eq_some_iff.mp ha
  rw [startWait_eq_waitLeft, State.waitLeft]
  split
  · rename_i hzero
    exact legalPosition_of_registers rfl ⟨rfl, rfl, rfl, rfl⟩ hk (fun h => absurd hzero h) he
  · exact legalPosition_of_registers rfl ⟨rfl, rfl, rfl, rfl⟩ hk.le (fun _ => ⟨n, ha, Nat.le_refl _⟩) he

/-- An edge of the running request leads from a legal position to a legal one (R32, R35, R156). -/
theorem legalPosition_runEdge (ph : Phase) (k : Nat) (s : State) (hp : s.pos = .run ph k) (hs : LegalPosition s) :
    LegalPosition (runEdge ph k s) := by
  obtain ⟨hk, hwait, he⟩ := (legalPosition_run s ph k hp).mp hs
  match hd : s.dcnt with
  | d + 2 =>
    obtain ⟨n, ha, hle⟩ := hwait (by omega)
    rw [runEdge_count ph k d s hd]
    exact legalPosition_of_registers hp ⟨rfl, rfl, rfl, rfl⟩ hk (fun _ => ⟨n, ha, by dsimp only; omega⟩) he
  | 1 =>
    obtain ⟨n, ha, -⟩ := hwait (by omega)
    obtain ⟨hlt, -⟩ := List.getElem?_eq_some_iff.mp ha
    rw [runEdge_last ph k s hd]
    exact legalPosition_of_registers rfl ⟨rfl, rfl, rfl, rfl⟩ hlt (fun h => absurd rfl h) he
  | 0 =>
    cases ha : (phaseActs ph s)[k]? with
    | none => rw [runEdge_finish ph k s hd ha]; exact legalPosition_finishPhase ph s hd he
    | some a =>
      rw [runEdge_step ph k a s hd ha]
      by_cases hw : ∃ n, a = .wait n
      · obtain ⟨n, rfl⟩ := hw
        exact legalPosition_startWait ph k n s ha he
      · obtain ⟨hlt, -⟩ := List.getElem?_eq_some_iff.mp ha
        obtain ⟨hop, harg, hcmd, -, -, -, hatt, -⟩ := a.run_keeps s
        rw [runStep_act ph k a s (fun n h => hw ⟨n, h⟩)]
        exact legalPosition_of_registers rfl ⟨hop, harg, hcmd, hatt⟩ hlt (fun h => absurd (a.run_dcnt s hd) h) he

theorem runActs_dcnt (as : List Act) (s : State) (h : s.dcnt = 0) : (runActs as s).dcnt = 0 := by
  induction as generalizing s with
  | nil => exact h
  | cons a as ih => exact ih (a.run s) (a.run_dcnt s h)

/-- A READ_A_BYTE leaves no wait running. -/
theorem readRegister_dcnt (s : State) (h : s.dcnt = 0) : (readRegister s).dcnt = 0 := by
  rw [readRegister_spec, State.respond_dcnt]
  cases attemptCount s.arg s.sampleAt with
  | zero => exact h
  | succ n => rfl

/-- A request run whole leaves no wait running. -/
theorem bodyOf_dcnt (i : Instr) (s : State) (h : s.dcnt = 0) : (bodyOf i s).dcnt = 0 := by
  obtain ⟨as, d, e, hbody, -⟩ | hbody := bodyOf_cases i s
  · rw [hbody]; exact runActs_dcnt as s h
  · rw [hbody]; exact readRegister_dcnt s h

/-- A request run whole ends in IDLE (R32). -/
theorem bodyOf_pos (i : Instr) (s : State) : (bodyOf i s).pos = .idle := by
  obtain ⟨es, u, d, e, -, h⟩ := bodyOf_busRun i s
  rw [h, State.respond_pos]

/-- Settles O45: an idle position keeps DCNT at 0, an accepting edge goes to the start of the op's list, and an edge of the
running request goes on within the list or to the phase R156 names. -/
theorem legalPositionIsKept : Obligations.LegalPositionIsKept := by
  intro s t hs h
  rcases step_next_cases s t h with ⟨hr, hexec⟩ | ⟨-, htick⟩
  · obtain ⟨hb, rfl⟩ := step_runsRequest_next s t hr hexec
    have hd : s.dcnt = 0 := (legalPosition_idle s ((s.busy_eq_false_iff).mp hb)).mp hs
    exact (legalPosition_idle _ (bodyOf_pos _ _)).mpr (bodyOf_dcnt _ _ (by simpa using hd))
  · obtain ⟨-, rfl⟩ | ⟨-, -, hp, -, rfl⟩ | ⟨-, -, hp, -, rfl⟩ | ⟨ph, k, -, -, hp, rfl⟩ := tick_next_cases s t htick
    · exact legalPosition_hostMove s.takeReset rfl
    · have hd : (s.accept s.reqOp s.reqArg).dcnt = 0 := (legalPosition_idle s hp).mp hs
      exact legalPosition_hostMove _ (legalPosition_atFirst (s.accept s.reqOp s.reqArg) .op hd
        ⟨fun h => absurd rfl h, nofun, fun h => absurd rfl h⟩)
    · exact legalPosition_hostMove s.idleEdge
        ((legalPosition_idle s.idleEdge hp).mpr ((legalPosition_idle s hp).mp hs))
    · exact legalPosition_hostMove _ (legalPosition_runEdge ph k s hp hs)

/-- Settles O47: after reset both lines are driven, the trace is empty and the position is IDLE with DCNT 0. -/
theorem invariantsHoldAtReset : Obligations.InvariantsHoldAtReset :=
  ⟨⟨by decide, nofun⟩, ⟨rfl, nofun⟩, rfl, trivial⟩

end Sys2Proof.Machine
end

section
/-! PROOFS. The host port and whole requests (10_state.md R25, R26, R28), contention (R23), and the step as an index of
events (R32). -/

namespace Sys2Proof.Machine

/-- Settles O1: read off the state after reset. -/
theorem resetLeavesIdleBus : Obligations.ResetLeavesIdleBus :=
  ⟨rfl, rfl, rfl, rfl, rfl, rfl, rfl, rfl⟩

/-! ## Accepting -/

/-- An edge of a ready core with a request on the port accepts it, outside contention (R25). -/
theorem tick_accept (s : State) (hready : s.reqReady = true) (hv : s.reqValid = true) (hc : s.contends = false) :
    tick s = .next (s.accept s.reqOp s.reqArg).hostMove := by
  obtain ⟨hp, hr⟩ := (s.reqReady_iff).mp hready
  unfold tick coreEdge
  rw [hr, hc, hp, hv]; rfl

/-- A core that is not ready accepts no instruction (R25). -/
theorem exec_not_ready (i : Instr) (s : State) (h : s.reqReady = false) : exec i s = .next s := by
  rw [exec_eq_request, request_not_ready _ _ _ _ _ h]

/-- Settles O4: `req_ready` is its definition, the accepting edge latches the port's fields, and a core that is not ready
stays as it is. -/
theorem requestLatchedOnlyWhenReady : Obligations.RequestLatchedOnlyWhenReady := by
  refine ⟨fun s => rfl, fun s hready hv hc => ⟨_, tick_accept s hready hv hc, ?_⟩, exec_not_ready⟩
  exact ⟨by simp, by simp, by simp, trace_of_rtrace_cons (by simp)⟩

/-! ## Completing -/

/-- The accepting edge of a whole request moves the host on to its next request (logs 5, 6). -/
theorem State.start_hostSide (op : BitVec 4) (arg : Byte) (s : State) :
    (s.start op arg).hostSide = { s with reqValid := false }.offerNext.hostSide := by
  rw [State.start_eq]; rfl

theorem State.rst_of_hostSide {s t : State} (h : t.hostSide = s.hostSide) : t.rst = s.rst :=
  congrArg Prod.fst h

/-- Settles O7: an accepted instruction is its Accept, one bus run and its Respond. -/
theorem oneRespondPerRequest : Obligations.OneRespondPerRequest := by
  intro i s h
  obtain ⟨es, u, d, e, hu, hbody⟩ := bodyOf_busRun i (s.start (opCodeOf i) (argByteOf s.codes i))
  have hrst : u.rst = false := by
    rw [State.rst_of_hostSide hu.hostSide, State.start_rst, rst_of_accepted h]
  have htraced : Traced (u.respond d e).op (u.respond d e).arg es s (u.respond d e) :=
    traced_of_rtrace (by simp [hu.rtrace, hu.op, hu.arg])
  refine ⟨es, u.respond d e, by rw [exec_accepted i s h, hbody], htraced, hu.onBus, rfl, ?_, ?_, ?_, ?_, ?_⟩
  · simp [hrst]
  · simpa using hu.draws
  · simpa using hu.drawIx
  · exact hu.hostSide.trans (s.start_hostSide _ _)
  · exact hu.settings.trans (s.start_settings _ _)

/-! ## Contention -/

/-- A ready core's request faults exactly when the slave holds SDA low and the core drives it high, already or by the op
(R23; log 4). -/
theorem request_fault_iff (op : BitVec 4) (arg : Byte) (high : Bool) (body : State → State) (s : State)
    (hr : s.reqReady = true) :
    request op arg high body s = .fault .contention ↔ s.sdaHeld = true ∧ (s.sda = .d1 ∨ high = true) := by
  rw [request, if_pos hr]
  split
  · rename_i h; simpa [or_comm] using h
  · rename_i h; simpa [or_comm] using h

/-- Settles O39: every instruction is a request, which tests for contention at its accepting edge. -/
theorem contentionStopsRequest : Obligations.ContentionStopsRequest := by
  intro i s hr
  rw [exec_eq_request]
  exact request_fault_iff _ _ _ _ s hr

/-! ## One event for each step -/

/-- An entry that is no Wait takes one edge, at which its action runs and the step advances (R32; log 7). -/
theorem tick_act (s : State) (ph : Phase) (k : Nat) (a : Act) (hp : s.pos = .run ph k) (hd : s.dcnt = 0)
    (hr : s.rst = false) (hc : s.contends = false) (ha : (phaseActs ph s)[k]? = some a) (hw : ∀ n, a ≠ .wait n) :
    tick s = .next ((a.run s).atStep ph (k + 1)).hostMove := by
  rw [tick_run s ph k hr hc hp, runEdge_step ph k a s hd ha, runStep_act ph k a s hw]

/-- Settles O49: every entry of a list makes one event, and outside a Wait one edge runs one entry. -/
theorem eachEventIsOneStep : Obligations.EachEventIsOneStep := by
  constructor
  · intro ph s
    obtain ⟨es, hlen, hes⟩ := phaseActs_busRun ph s s
    exact ⟨es, hes.trace, hlen, hes.onBus⟩
  · intro s ph k a hp hd hr hc ha hw
    obtain ⟨e, he, hbus⟩ := a.run_event s
    refine ⟨e, _, tick_act s ph k a hp hd hr hc ha hw, trace_of_rtrace_cons (by simp [he]), hbus, by simp, ?_⟩
    simpa using a.run_dcnt s hd

end Sys2Proof.Machine
end

section
/-! PROOFS. The framing ops on the wire (10_state.md R29, 30_encoding.md R76, 40_framing_timing.md R102, R105). -/

namespace Sys2Proof.Machine

/-- Level pairs for whatever levels are given for a released SDA, which busStart never has (R101). -/
theorem levelPairs_busStart (rel : List Level) :
    levelPairs (.d1, .d1) rel busStartEvents =
      [(true, true), (true, true), (true, true), (false, true), (false, true)] := rfl

/-- Level pairs for whatever levels are given for a released SDA, which busStop never has (R104). -/
theorem levelPairs_busStop (rel : List Level) :
    levelPairs (.d1, .d1) rel busStopEvents =
      [(true, false), (true, false), (false, false), (false, false), (false, true), (false, true), (true, true)] := rfl

/-- BUS_START answers a state whose trace has the events of busStart (R101, R102). -/
theorem exec_busStart_traced (a : Byte) (s : State) (h : Accepted (.busStart a) s) :
    ∃ t, exec (.busStart a) s = .next t ∧ Traced 0x2#4 a busStartEvents s t := by
  refine ⟨_, exec_accepted _ s h, traced_of_rtrace ?_⟩
  simp [bodyOf, runActs_busStart, opCodeOf, argByteOf]

/-- BUS_STOP answers a state whose trace has the events of busStop (R104, R105). -/
theorem exec_busStop_traced (a : Byte) (s : State) (h : Accepted (.busStop a) s) :
    ∃ t, exec (.busStop a) s = .next t ∧ Traced 0x3#4 a busStopEvents s t := by
  refine ⟨_, exec_accepted _ s h, traced_of_rtrace ?_⟩
  simp [bodyOf, runActs_busStop, opCodeOf, argByteOf]

/-- Settles O16: the wire is computed from the level pairs of the two event lists. -/
theorem framingOnTheWire : Obligations.FramingOnTheWire := by
  intro a s start rel hpads
  rw [hpads]
  constructor
  · intro h
    obtain ⟨t, hexec, htr⟩ := exec_busStart_traced a s h
    refine ⟨busStartEvents, t, hexec, htr, ?_⟩
    rw [wire, wireFrom, levelPairs_busStart]
    exact ⟨rfl, rfl, rfl, rfl⟩
  · intro h
    obtain ⟨t, hexec, htr⟩ := exec_busStop_traced a s h
    refine ⟨busStopEvents, t, hexec, htr, ?_⟩
    rw [wire, wireFrom, levelPairs_busStop]
    exact ⟨rfl, rfl, rfl, rfl⟩

end Sys2Proof.Machine
end

section
/-! PROOFS. The registers inside the sequencer: what READ_A_BYTE leaves in them (10_state.md R30, R33), and that no request
shows what they held before (R37). -/

namespace Sys2Proof.Machine

/-! ## After READ_A_BYTE -/

/-- The last checksum byte is that of the last acknowledged attempt, if none after it is acknowledged. -/
theorem lastChecksum_of_last (f : Nat → Level) (old : Byte) (n j : Nat) (hj : j < n) (ha : attemptAcked f j = true)
    (hlast : ∀ j' < n, j < j' → attemptAcked f j' = false) : lastChecksum f old n = attemptChecksum f j := by
  induction n with
  | zero => omega
  | succ n ih =>
    rw [lastChecksum]
    obtain rfl | hlt : j = n ∨ j < n := by omega
    · rw [ha]; rfl
    · rw [hlast n (by omega) hlt]
      exact ih hlt fun j' hj' => hlast j' (by omega)

/-- With no attempt acknowledged no checksum byte was read. -/
theorem lastChecksum_of_none (f : Nat → Level) (old : Byte) (n : Nat) (h : ∀ j < n, attemptAcked f j = false) :
    lastChecksum f old n = old := by
  induction n with
  | zero => rfl
  | succ n ih =>
    rw [lastChecksum, h n (by omega)]
    exact ih fun j hj => h j (by omega)

/-- The result of the call is the value its last attempt leaves (R158). -/
theorem transactionResult_eq (c : Byte) (f : Nat → Level) (n : Nat) (hn : attemptCount c f = n + 1) :
    transactionResult c f = if attemptPasses c f n then attemptValue f n else Config.sentinel := by
  unfold attemptCount at hn
  unfold transactionResult
  cases p0 : attemptPasses c f 0
  · cases p1 : attemptPasses c f 1
    · obtain rfl : n = 2 := by simpa [p0, p1, eq_comm] using hn
      rfl
    · obtain rfl : n = 1 := by simpa [p0, p1, eq_comm] using hn
      simp [p1]
  · obtain rfl : n = 0 := by simpa [p0, eq_comm] using hn
    simp [p0]

/-- The state an accepted READ_A_BYTE answers, from the number `m + 1` of its attempts (R155). -/
theorem exec_readAByte_next (c : Byte) (s t : State) (hacc : Accepted (.readAByte c) s)
    (h : exec (.readAByte c) s = .next t) :
    ∃ m, attemptCount c s.sampleAt = m + 1 ∧
      t = (afterAttempts (enterEngine (s.start 0x9#4 c)) s.sampleAt (m + 1)).respond
        (if attemptPasses c s.sampleAt m then attemptValue s.sampleAt m else Config.sentinel) false := by
  obtain ⟨m, hm⟩ : ∃ m, attemptCount c s.sampleAt = m + 1 :=
    ⟨_, (Nat.sub_add_cancel (attemptCount_range c s.sampleAt).1).symm⟩
  refine ⟨m, hm, ?_⟩
  have hspec := readRegister_spec (s.start 0x9#4 c)
  rw [sampleAt_start, State.start_arg, hm, transactionResult_eq c s.sampleAt m hm] at hspec
  rw [exec_accepted _ s hacc] at h
  exact (Host.Outcome.next.inj h).symm.trans hspec

/-- Settles O30: the registers are those of the closed form of the call's attempts. -/
theorem readAByteRegisters : Obligations.ReadAByteRegisters := by
  intro c s t hacc h f n
  obtain ⟨m, hm, rfl⟩ := exec_readAByte_next c s t hacc h
  have hn : n = m + 1 := hm
  rw [hn, Nat.add_sub_cancel]
  refine ⟨by simp [afterAttempts], by simp [afterAttempts], by simp [afterAttempts, f], rfl, rfl, fun hnone => ?_,
    fun j hj ha hlast => ?_⟩
  · simpa [afterAttempts] using ⟨lastChecksum_of_none f s.shreg _ hnone, lastChecksum_of_none f s.chk _ hnone⟩
  · exact ⟨lastChecksum_of_last f _ _ j hj ha hlast, lastChecksum_of_last f _ _ j hj ha hlast⟩

/-! ## What a request does not show -/

/-- The state with the registers inside the sequencer blanked, OP and ARG kept (R30). -/
def State.blankInner (s : State) : State :=
  { s with
    shreg := 0#8, bitidx := 0#3, cmd := 0#8, val := 0#8, chk := 0#8, attempt := 0#2, ackbit := false, ok := false }

/-- The accepting edge overwrites OP and ARG, so states that look the same are then the same but for the inner registers
(R25, R37). -/
theorem State.blankInner_start (op : BitVec 4) (arg : Byte) (s : State) :
    (s.start op arg).blankInner = (s.visible.start op arg).blankInner := by
  rw [State.start_eq, State.start_eq]
  unfold State.offerNext
  cases hp : s.hostProgram <;> simp [State.blankInner, State.visible, hp]

/-- READ_A_BYTE shows nothing of what the inner registers held before: its entry sets CMD, VAL, ATTEMPT and OK (R37, R150). -/
theorem readRegister_visible (s : State) : (readRegister s).visible = (readRegister s.blankInner).visible := by
  rw [readRegister_spec, readRegister_spec]
  show State.visible _ = State.visible ((afterAttempts _ s.sampleAt (attemptCount s.arg s.sampleAt)).respond
    (transactionResult s.arg s.sampleAt) false)
  cases attemptCount s.arg s.sampleAt <;> rfl

/-- No instruction shows, after its accepting edge, what the inner registers held before (R37). -/
theorem bodyOf_visible (i : Instr) (s : State) : (bodyOf i s).visible = (bodyOf i s.blankInner).visible := by
  cases i with
  | delay n => rfl
  | busStart a => simp only [bodyOf, runActs_busStart]; rfl
  | busStop a => simp only [bodyOf, runActs_busStop]; rfl
  | sendByte v => simp only [bodyOf, runActs_sendByte]; rfl
  | readByte a => simp only [bodyOf, runActs_readByte]; rfl
  | checkAck a => simp only [bodyOf, runActs_checkAck]; rfl
  | sendAck a => simp only [bodyOf, runActs_sendAck]; rfl
  | sendNak a => simp only [bodyOf, runActs_sendNak]; rfl
  | reserved0 | reservedA | reservedB | reservedC | reservedD | reservedE | reservedF => rfl
  | _ => exact readRegister_visible s

/-- A request whose body shows the same from both states answers alike: its tests look at visible fields alone. -/
theorem request_visible (op : BitVec 4) (arg : Byte) (high : Bool) (body : State → State) (s s' : State)
    (hv : s.visible = s'.visible) (hbody : (body (s.start op arg)).visible = (body (s'.start op arg)).visible) :
    (∀ t, request op arg high body s = .next t →
      ∃ t', request op arg high body s' = .next t' ∧ t.visible = t'.visible) ∧
    (∀ f, request op arg high body s = .fault f → request op arg high body s' = .fault f) := by
  have hready := congrArg State.reqReady hv
  have hheld := congrArg State.sdaHeld hv
  have hsda := congrArg State.sda hv
  change s.reqReady = s'.reqReady at hready
  change s.sdaHeld = s'.sdaHeld at hheld
  change s.sda = s'.sda at hsda
  unfold request
  rw [← hready, ← hheld, ← hsda]
  split
  · split
    · exact ⟨fun t h => (by cases h), fun f h => h⟩
    · refine ⟨fun t h => ⟨_, rfl, ?_⟩, fun f h => by cases h⟩
      rw [← Host.Outcome.next.inj h, hbody]
  · refine ⟨fun t h => ⟨s', rfl, ?_⟩, fun f h => by cases h⟩
    rw [← Host.Outcome.next.inj h, hv]

/-- Settles O38: every instruction is a request, and no body shows what the inner registers held at its start. -/
theorem innerRegistersDoNotLeak : Obligations.InnerRegistersDoNotLeak := by
  intro i s s' hv
  have hcodes := congrArg State.codes hv
  change s.codes = s'.codes at hcodes
  rw [exec_eq_request, exec_eq_request, ← hcodes]
  refine request_visible _ _ _ _ s s' hv ?_
  rw [bodyOf_visible, State.blankInner_start, hv, ← State.blankInner_start, ← bodyOf_visible]

end Sys2Proof.Machine
end

section
/-! PROOFS. The sequencer's edges under a settled host: an entry of a list, a whole phase, or a stop by contention
(10_state.md R23, R32, R35). -/

namespace Sys2Proof.Machine

/-! ## Reaching and stopping -/

/-- Some number of edges leads from `s` to `t`. -/
def Reaches (s t : State) : Prop := ∃ n, ticks n s = .next t

/-- Some number of edges leads from `s` to contention. -/
def Stops (s : State) : Prop := ∃ n, ticks n s = .fault .contention

theorem Reaches.refl (s : State) : Reaches s s := ⟨0, rfl⟩

theorem Reaches.of_tick {s t : State} (h : tick s = .next t) : Reaches s t := ⟨1, ticks_succ_next 0 s t h⟩

theorem Reaches.trans {s t u : State} (h : Reaches s t) (k : Reaches t u) : Reaches s u := by
  obtain ⟨m, hm⟩ := h
  obtain ⟨n, hn⟩ := k
  exact ⟨m + n, (ticks_add m n s t hm).trans hn⟩

theorem Reaches.stops {s t : State} (h : Reaches s t) (k : Stops t) : Stops s := by
  obtain ⟨m, hm⟩ := h
  obtain ⟨n, hn⟩ := k
  exact ⟨m + n, (ticks_add m n s t hm).trans hn⟩

/-- Contention stops the core at the next edge, outside reset (R23, U14). -/
theorem Stops.of_contends {s : State} (hr : s.rst = false) (hc : s.contends = true) : Stops s := by
  refine ⟨1, ?_⟩
  unfold ticks tick coreEdge
  rw [hr, hc]; rfl

/-! ## A settled host -/

/-- The host has no schedule, no reset, and nothing to do until the port is free and a request is left (R214). -/
structure Settled (s : State) : Prop where
  schedule : s.schedule = []
  rst : s.rst = false
  offered : s.reqValid = true ∨ s.hostProgram = []

theorem Settled.hostMove {s : State} (h : Settled s) : s.hostMove = s :=
  s.hostMove_settled h.schedule h.rst h.offered

theorem Settled.hostMoves {s : State} (h : Settled s) (n : Nat) : hostMoves n s = s := by
  induction n with
  | zero => rfl
  | succ n ih => rw [Machine.hostMoves, h.hostMove, ih]

/-- The host's side alone says whether the host is settled. -/
theorem Settled.of_hostSide {s t : State} (hs : Settled s) (h : t.hostSide = s.hostSide) : Settled t := by
  simp only [State.hostSide, State.offers, Prod.mk.injEq] at h
  obtain ⟨hrst, ⟨hvalid, -, -, hprog⟩, hsched⟩ := h
  exact ⟨hsched.trans hs.schedule, hrst.trans hs.rst, by rw [hvalid, hprog]; exact hs.offered⟩

/-- The accepting edge of a whole request leaves the host settled: its next request is offered, if there is one. -/
theorem Settled.start (op : BitVec 4) (arg : Byte) (s : State) (hs : s.schedule = []) (hr : s.rst = false) :
    Settled (s.start op arg) := by
  refine ⟨by simpa using hs, by simpa using hr, ?_⟩
  cases hp : s.hostProgram <;> simp [State.start, State.offerNext, hp]

/-- Without a schedule the host's move only offers the next request. -/
theorem State.hostMove_unscheduled (s : State) (hs : s.schedule = []) (hr : s.rst = false) :
    s.hostMove = s.offerNext := by
  have hsame : { s with rst := false } = s := by cases s; simp_all
  unfold State.hostMove
  split
  · rw [hsame]
  · rename_i h; rw [hs] at h; cases h

/-! ## One entry of a phase's list -/

theorem State.atStep_atStep (ph ph' : Phase) (k k' : Nat) (s : State) :
    (s.atStep ph k).atStep ph' k' = s.atStep ph' k' := rfl

theorem State.atStep_of_pos {s : State} {ph : Phase} {k : Nat} (h : s.pos = .run ph k) : s.atStep ph k = s := by
  rw [State.atStep, ← h]

/-- Under a settled host an edge of the running request is the core's alone. -/
theorem tick_settled {s : State} {ph : Phase} {k : Nat} (hs : Settled s) (hc : s.contends = false)
    (hp : s.pos = .run ph k) : tick s = .next (runEdge ph k s) := by
  rw [tick_run s ph k hs.rst hc hp, (hs.of_hostSide (runEdge_keeps ph k s).1).hostMove]

/-- The edges of one entry run its action and advance the step, a Wait's after its cycles (R32, R35). -/
theorem reaches_act {s : State} {ph : Phase} {k : Nat} {a : Act} (hs : Settled s) (hd : s.dcnt = 0)
    (hc : s.contends = false) (hp : s.pos = .run ph k) (ha : (phaseActs ph s)[k]? = some a) :
    Reaches s ((a.run s).atStep ph (k + 1)) := by
  by_cases hw : ∃ n, a = .wait n
  · obtain ⟨n, rfl⟩ := hw
    have hsched : ∀ c ∈ s.schedule.take (n * Config.delayFactor), c.rst = false := by rw [hs.schedule]; simp
    have hwait := waitTakesItsCycles s ph k n (n * Config.delayFactor) hp hd hs.rst hsched hc ha (Nat.le_refl _)
    have hafter : Settled (s.inWait n 0 ph (k + 1)) := hs.of_hostSide rfl
    rw [Nat.sub_self, if_pos rfl, hafter.hostMoves] at hwait
    exact ⟨_, hwait⟩
  · apply Reaches.of_tick
    rw [tick_settled hs hc hp, runEdge_step ph k a s hd ha, runStep_act ph k a s fun n h => hw ⟨n, h⟩]

/-! ## A list of entries -/

theorem runActs_sdaHeld (as : List Act) (s : State) : (runActs as s).sdaHeld = s.sdaHeld := by
  obtain ⟨-, -, -, -, -, h, -⟩ := runActs_keeps as s
  exact h

theorem runActs_hostSide (as : List Act) (s : State) : (runActs as s).hostSide = s.hostSide := by
  obtain ⟨-, -, -, -, -, -, -, -, -, -, -, h, -⟩ := runActs_keeps as s
  exact h

theorem phaseActs_runActs (ph : Phase) (as : List Act) (s : State) :
    phaseActs ph (runActs as s) = phaseActs ph s := by
  obtain ⟨hop, harg, hcmd, -⟩ := runActs_keeps as s
  exact phaseActs_congr ph s _ hop harg hcmd

theorem phaseActs_atStep (ph ph' : Phase) (k : Nat) (s : State) : phaseActs ph (s.atStep ph' k) = phaseActs ph s :=
  phaseActs_congr ph s (s.atStep ph' k) rfl rfl rfl

theorem Settled.runActs {s : State} (hs : Settled s) (as : List Act) : Settled (runActs as s) :=
  hs.of_hostSide (runActs_hostSide as s)

theorem Settled.atStep {s : State} (hs : Settled s) (ph : Phase) (k : Nat) : Settled (s.atStep ph k) :=
  hs.of_hostSide rfl

/-- The list left at a step begins with the entry there, and goes on with the list left at the next step (R32). -/
theorem phaseActs_drop_cons {ph : Phase} {a : Act} {as : List Act} {k : Nat} {s : State}
    (h : (phaseActs ph s).drop k = a :: as) :
    (phaseActs ph s)[k]? = some a ∧ (phaseActs ph ((a.run s).atStep ph (k + 1))).drop (k + 1) = as := by
  have hrun : phaseActs ph (a.run s) = phaseActs ph s := phaseActs_runActs ph [a] s
  constructor
  · rw [← List.head?_drop, h, List.head?_cons]
  · rw [phaseActs_atStep, hrun, ← List.drop_drop, h, List.drop_one, List.tail_cons]

/-- If no part of the rest of a phase's list ends in contention, its edges run it to the end (R32). -/
theorem reaches_acts (ph : Phase) (as : List Act) (k : Nat) (s : State) (hs : Settled s) (hd : s.dcnt = 0)
    (hp : s.pos = .run ph k) (hdrop : (phaseActs ph s).drop k = as)
    (hfree : ∀ pre, pre <+: as → (runActs pre s).contends = false) :
    Reaches s ((runActs as s).atStep ph (k + as.length)) := by
  induction as generalizing s k with
  | nil => exact (State.atStep_of_pos hp) ▸ Reaches.refl s
  | cons a as ih =>
    obtain ⟨ha, hnext⟩ := phaseActs_drop_cons hdrop
    have hfree' : ∀ pre, pre <+: as → (runActs pre ((a.run s).atStep ph (k + 1))).contends = false := by
      intro pre hpre
      rw [runActs_atStep]
      exact hfree (a :: pre) (List.cons_prefix_cons.mpr ⟨rfl, hpre⟩)
    have hrest := ih (k + 1) _ ((hs.runActs [a]).atStep ph (k + 1)) (a.run_dcnt s hd) rfl hnext hfree'
    rw [runActs_atStep, State.atStep_atStep] at hrest
    rw [List.length_cons, Nat.add_comm as.length 1, ← Nat.add_assoc]
    exact (reaches_act hs hd (hfree [] List.nil_prefix) hp ha).trans hrest

/-- If some part of the rest of a phase's list ends in contention, the edges stop there or before (R23). -/
theorem stops_acts (ph : Phase) (pre as : List Act) (k : Nat) (s : State) (hs : Settled s) (hd : s.dcnt = 0)
    (hp : s.pos = .run ph k) (hdrop : (phaseActs ph s).drop k = pre ++ as)
    (hc : (runActs pre s).contends = true) : Stops s := by
  induction pre generalizing s k with
  | nil => exact Stops.of_contends hs.rst hc
  | cons a pre ih =>
    cases hnow : s.contends with
    | true => exact Stops.of_contends hs.rst hnow
    | false =>
      obtain ⟨ha, hnext⟩ := phaseActs_drop_cons hdrop
      refine (reaches_act hs hd hnow hp ha).stops
        (ih (k + 1) _ ((hs.runActs [a]).atStep ph (k + 1)) (a.run_dcnt s hd) rfl hnext ?_)
      rw [runActs_atStep]
      exact hc

/-- The end of a phase overwrites the position (R156). -/
theorem finishPhase_atStep (ph ph' : Phase) (k : Nat) (s : State) :
    finishPhase ph (s.atStep ph' k) = finishPhase ph s := by
  cases ph with
  | op =>
    rw [finishPhase_op, finishPhase_op, finishOp, finishOp, State.atStep_op]
    cases decodeOp s.op <;> rfl
  | _ => rfl

/-- The edges of a whole phase, from its first step to what its end leads to (R156). -/
theorem reaches_phase (ph : Phase) (s : State) (hs : Settled s) (hd : s.dcnt = 0)
    (hfree : ∀ pre, pre <+: phaseActs ph s → (runActs pre s).contends = false) :
    Reaches (s.atStep ph 0) (finishPhase ph (runActs (phaseActs ph s) s)) := by
  have hlist := reaches_acts ph (phaseActs ph s) 0 (s.atStep ph 0) (hs.atStep ph 0) hd rfl (phaseActs_atStep ph ph 0 s)
    fun pre hpre => by rw [runActs_atStep]; exact hfree pre hpre
  rw [runActs_atStep, State.atStep_atStep, Nat.zero_add] at hlist
  refine hlist.trans (Reaches.of_tick ?_)
  have hend : ((runActs (phaseActs ph s) s).atStep ph (phaseActs ph s).length).contends = false :=
    hfree _ (List.prefix_refl _)
  have hdone : ((runActs (phaseActs ph s) s).atStep ph (phaseActs ph s).length).dcnt = 0 := runActs_dcnt _ s hd
  have hnone : (phaseActs ph ((runActs (phaseActs ph s) s).atStep ph (phaseActs ph s).length))[(phaseActs ph s).length]? =
      none := by
    rw [phaseActs_atStep, phaseActs_runActs]; exact List.getElem?_eq_none (Nat.le_refl _)
  rw [tick_settled ((hs.runActs _).atStep ph _) hend rfl, runEdge_finish ph _ _ hdone hnone, finishPhase_atStep]

end Sys2Proof.Machine
end

section
/-! PROOFS. A whole request is a run of the sequencer's edges (10_state.md R32, 20_memory.md R57, 42_command_engine.md
R156): op by op, the engine attempt by attempt, and the edges that stop where the request does (R23). -/

namespace Sys2Proof.Machine

/-! ## Where no contention can arise -/

theorem contends_of_not_held {s : State} (h : s.sdaHeld = false) : s.contends = false := by
  rw [State.contends, h]; rfl

theorem contends_of_not_high {s : State} (h : s.sda ≠ .d1) : s.contends = false := by
  simp [State.contends, h]

/-- An accepted request does not start in contention (R23). -/
theorem contends_of_accepted {i : Instr} {s : State} (h : Accepted i s) : s.contends = false := by
  cases hh : s.sdaHeld with
  | false => exact contends_of_not_held hh
  | true => exact contends_of_not_high (h.2 hh).1

/-- An action that does not drive SDA high leaves it not driven high. -/
theorem Act.run_sda_ne_high (a : Act) (s : State) (ha : a.drivesSdaHigh = false) (hs : s.sda ≠ .d1) :
    (a.run s).sda ≠ .d1 := by
  cases a with
  | drive l b =>
    cases l with
    | sda =>
      obtain rfl : b = false := ha
      exact nofun
    | scl => exact hs
  | driveBit v =>
    obtain rfl : v = 0x00#8 := by simpa [Act.drivesSdaHigh] using ha
    have hbit : bitOf 0x00#8 s.bitidx = false := by simp [bitOf]
    simp [Act.run, State.setLine, State.emit, hbit, Drive.ofLevel]
  | release l =>
    cases l with
    | sda => exact nofun
    | scl => exact hs
  | lowAfter ws =>
    obtain ⟨b, sh, v, c, hw⟩ := runWrites_writes ws s
    rw [Act.run, hw]; exact hs
  | _ => exact hs

theorem runActs_sda_ne_high (as : List Act) (s : State) (has : ∀ a ∈ as, a.drivesSdaHigh = false)
    (hs : s.sda ≠ .d1) : (runActs as s).sda ≠ .d1 := by
  induction as generalizing s with
  | nil => exact hs
  | cons a as ih =>
    obtain ⟨ha, has⟩ := List.forall_mem_cons.mp has
    exact ih (a.run s) has (a.run_sda_ne_high s ha hs)

/-- A list that does not drive SDA high, begun while SDA is not high, meets no contention in any part of it. -/
theorem runActs_not_contends (as : List Act) (s : State)
    (h : s.sdaHeld = true → s.sda ≠ .d1 ∧ ∀ a ∈ as, a.drivesSdaHigh = false) :
    ∀ pre, pre <+: as → (runActs pre s).contends = false := by
  intro pre hpre
  cases hh : s.sdaHeld with
  | false => exact contends_of_not_held ((runActs_sdaHeld pre s).trans hh)
  | true =>
    obtain ⟨hsda, has⟩ := h hh
    exact contends_of_not_high (runActs_sda_ne_high pre s (fun a ha => has a (hpre.subset ha)) hsda)

/-! ## The engine, attempt by attempt -/

/-- The engine can run from `s`: the host is settled, no wait is running, and the slave lets SDA go. -/
structure EngineFree (s : State) : Prop where
  settled : Settled s
  dcnt : s.dcnt = 0
  notHeld : s.sdaHeld = false

theorem sdaHeld_of_settings {s t : State} (h : t.settings = s.settings) : t.sdaHeld = s.sdaHeld :=
  congrArg Prod.fst h

theorem EngineFree.of_busRun {s t : State} {es : List Event} (hs : EngineFree s) (h : BusRun es s t)
    (hd : t.dcnt = 0) : EngineFree t :=
  ⟨hs.settled.of_hostSide h.hostSide, hd, (sdaHeld_of_settings h.settings).trans hs.notHeld⟩

theorem EngineFree.runActs {s : State} (hs : EngineFree s) (as : List Act) : EngineFree (runActs as s) :=
  ⟨hs.settled.runActs as, runActs_dcnt as s hs.dcnt, (runActs_sdaHeld as s).trans hs.notHeld⟩

theorem EngineFree.reaches_phase {s : State} (hs : EngineFree s) (ph : Phase) :
    Reaches (s.atStep ph 0) (finishPhase ph (Machine.runActs (phaseActs ph s) s)) :=
  Machine.reaches_phase ph s hs.settled hs.dcnt
    (runActs_not_contends _ s fun h => by rw [hs.notHeld] at h; cases h)

theorem attempt_attempt (s : State) : (attempt s).attempt = s.attempt + 1#2 := by
  cases h : s.sampleAt 0
  · rw [attempt_acked s h]
  · rw [attempt_not_acked s h]

theorem attempt_dcnt (s : State) : (attempt s).dcnt = 0 := by
  cases h : s.sampleAt 0
  · rw [attempt_acked s h]
  · rw [attempt_not_acked s h]

/-- The part of an attempt up to its acknowledge (R151). -/
def attemptHead (s : State) : State := runActs checkAck (runActs (commandPhase s.cmd) (countAttempt s))

theorem attempt_of_no_ack (s : State) (h : (attemptHead s).ackbit = true) :
    attempt s = clearOk (runActs busStop (attemptHead s)) := if_pos h

theorem attempt_of_ack (s : State) (h : ¬ (attemptHead s).ackbit = true) :
    attempt s = validate (runActs responsePhase (attemptHead s)) := if_neg h

/-- VALIDATE_CHECKSUM leads to ACCEPT or RETRY, by the checksum check (R153, R156). -/
theorem reaches_validate (s : State) (hs : EngineFree s) :
    Reaches (s.atStep .validate 0) ((validate s).atStep (if (validate s).ok then .accept else .retry) 0) := by
  have h := hs.reaches_phase .validate
  rw [show phaseActs .validate s = [] from rfl, runActs, finishPhase_validate] at h
  rwa [apply_ite (fun ph => (validate s).atStep ph 0)]

/-- The edges of one attempt lead to ACCEPT or RETRY (R151 to R153, R156). -/
theorem reaches_attempt (s : State) (hs : EngineFree s) :
    Reaches (s.atStep .attempt 0) ((attempt s).atStep (if (attempt s).ok then .accept else .retry) 0) := by
  have hcounted : EngineFree (countAttempt s) := hs.of_busRun (countAttempt_busRun s) hs.dcnt
  have hsent := hcounted.runActs (commandPhase s.cmd)
  have hacked : EngineFree (attemptHead s) := hsent.runActs checkAck
  have hhead : Reaches (s.atStep .attempt 0) (finishPhase .checkAck (attemptHead s)) :=
    ((hs.reaches_phase .attempt).trans (hcounted.reaches_phase .sendCmd)).trans (hsent.reaches_phase .checkAck)
  refine hhead.trans ?_
  rw [finishPhase_checkAck]
  split
  · rename_i hb
    rw [attempt_of_no_ack s hb]
    exact hacked.reaches_phase .ackFailed
  · rename_i hb
    rw [attempt_of_ack s hb]
    exact (hacked.reaches_phase .readValue).trans (reaches_validate _ (hacked.runActs responsePhase))

theorem EngineFree.attempt {s : State} (hs : EngineFree s) : EngineFree (attempt s) := by
  obtain ⟨es, hes⟩ := attempt_busRun s
  exact hs.of_busRun hes (attempt_dcnt s)

/-- After an attempt that failed, RETRY begins another one while ATTEMPT is below N_ATTEMPTS (R154, R156). -/
theorem reaches_retry (s : State) (hs : EngineFree s) :
    Reaches (s.atStep .retry 0)
      (if s.attempt.toNat < Config.nAttempts then s.atStep .attempt 0 else s.respond s.val false) :=
  hs.reaches_phase .retry

/-- The edges of the attempts of a call, `n + 1` at most, lead to its Respond (R154, R155). -/
theorem reaches_attempts (n : Nat) (s : State) (hs : EngineFree s)
    (hn : s.attempt.toNat + (n + 1) = Config.nAttempts) :
    Reaches (s.atStep .attempt 0) ((attempts (n + 1) s).respond (attempts (n + 1) s).val false) := by
  have hmax : s.attempt.toNat + (n + 1) = 3 := hn
  have hcount : (attempt s).attempt.toNat = s.attempt.toNat + 1 := by
    rw [attempt_attempt, BitVec.toNat_add_of_lt (by simp; omega)]; rfl
  refine (reaches_attempt s hs).trans ?_
  cases hok : (attempt s).ok with
  | true =>
    have hover : attempts (n + 1) s = attempt s := by simp [attempts, attemptsOver, hok]
    rw [hover]
    exact hs.attempt.reaches_phase .accept
  | false =>
    refine (reaches_retry (attempt s) hs.attempt).trans ?_
    cases n with
    | zero =>
      have hover : attempts 1 s = attempt s := by simp [attempts]
      rw [hover, if_neg (by rw [hcount, hn]; exact Nat.lt_irrefl _)]
      exact Reaches.refl _
    | succ n =>
      have hlt : (attempt s).attempt.toNat < Config.nAttempts := by rw [hcount, Config.nAttempts]; omega
      have hagain : attempts (n + 2) s = attempts (n + 1) (attempt s) := by
        simp [attempts, attemptsOver, hok, hlt.ne]
      rw [hagain, if_pos hlt]
      exact reaches_attempts n (attempt s) hs.attempt (by rw [hcount, ← hn]; omega)

/-- The edges of a READ_A_BYTE from its accepted request (R150, R155). -/
theorem reaches_readRegister (s : State) (hs : EngineFree s) (hop : s.op = 0x9#4) :
    Reaches (s.atStep .op 0) (readRegister s) := by
  have hentry := hs.reaches_phase .op
  have hdecode : decodeOp s.op = .readAByte := by rw [hop]; rfl
  rw [finishPhase_op, phaseActs, opActs, hdecode, runActs, finishOp, hdecode] at hentry
  exact hentry.trans (reaches_attempts 2 (enterEngine s) (hs.of_busRun (enterEngine_busRun s) hs.dcnt) rfl)

/-! ## Every op -/

/-- An op of the engine is the request READ_A_BYTE (R50, R155). -/
theorem bodyOf_of_readAByte (i : Instr) (h : opCodeOf i = 0x9#4) : bodyOf i = readRegister ∧ drivesSdaHigh i = true := by
  cases i with
  | readAByte | cmdTypeLb | cmdTypeHb | cmdParams | cmdStatus | cmdHumLb | cmdHumHb | cmdTempLb | cmdTempHb | cmdPresLb
  | cmdPresHb | cmdCo2Lb | cmdCo2Hb => exact ⟨rfl, rfl⟩
  | _ => cases h

/-- Every other op runs the list the sequencer indexes, and ends as the sequencer ends it (R32). -/
theorem bodyOf_eq_finishOp (i : Instr) (s : State) (hop : s.op = opCodeOf i) (h : opCodeOf i ≠ 0x9#4) :
    bodyOf i s = finishOp (runActs (opActs s) s) := by
  have hkeep : (runActs (opActs s) s).op = opCodeOf i := by
    obtain ⟨ho, -⟩ := runActs_keeps (opActs s) s
    rw [ho, hop]
  rw [finishOp, hkeep, opActs, hop]
  cases i with
  | readAByte | cmdTypeLb | cmdTypeHb | cmdParams | cmdStatus | cmdHumLb | cmdHumHb | cmdTempLb | cmdTempHb | cmdPresLb
  | cmdPresHb | cmdCo2Lb | cmdCo2Hb => exact absurd rfl h
  | _ => rfl

/-- An instruction that drives SDA high nowhere has a list that does not (R23). -/
theorem opActs_low (i : Instr) (s : State) (hop : s.op = opCodeOf i) (harg : s.arg = argByteOf s.codes i)
    (h : drivesSdaHigh i = false) : ∀ a ∈ opActs s, a.drivesSdaHigh = false := by
  have hall : (opActs s).all (fun a => !a.drivesSdaHigh) = true := by
    rw [opActs, hop, harg]
    cases i with
    | sendByte v =>
      obtain rfl : v = 0x00#8 := by simpa [drivesSdaHigh] using h
      rfl
    | delay | readByte | checkAck | sendAck | reserved0 | reservedA | reservedB | reservedC | reservedD | reservedE
    | reservedF => rfl
    | _ => cases h
  simpa using hall

/-- The edges from an accepted request that meets no contention lead to what its body leaves (R32, R57). -/
theorem reaches_bodyOf (i : Instr) (s : State) (hs : Settled s) (hd : s.dcnt = 0) (hop : s.op = opCodeOf i)
    (harg : s.arg = argByteOf s.codes i) (hfree : s.sdaHeld = true → s.sda ≠ .d1 ∧ drivesSdaHigh i = false) :
    Reaches (s.atStep .op 0) (bodyOf i s) := by
  by_cases h : opCodeOf i = 0x9#4
  · obtain ⟨hbody, hhigh⟩ := bodyOf_of_readAByte i h
    have hheld : s.sdaHeld = false := by
      cases hh : s.sdaHeld with
      | false => rfl
      | true => rw [(hfree hh).2] at hhigh; cases hhigh
    rw [hbody]
    exact reaches_readRegister s ⟨hs, hd, hheld⟩ (hop.trans h)
  · rw [bodyOf_eq_finishOp i s hop h]
    refine reaches_phase .op s hs hd (runActs_not_contends _ s fun hh => ?_)
    obtain ⟨hsda, hlow⟩ := hfree hh
    exact ⟨hsda, opActs_low i s hop harg hlow⟩

/-! ## Where the edges stop -/

/-- A byte that is not 0 has a bit that is 1. -/
theorem exists_bitOf_of_ne_zero (v : Byte) (h : v ≠ 0x00#8) : ∃ i, bitOf v i = true := by
  by_contra hnone
  refine h (BitVec.eq_of_getLsbD_eq fun i hi => ?_)
  have hbit : bitOf v (BitVec.ofNat 3 i) = false := by
    cases hb : bitOf v (BitVec.ofNat 3 i) with
    | false => rfl
    | true => exact absurd ⟨_, hb⟩ hnone
  have hi3 : (BitVec.ofNat 3 i).toNat = i := by rw [BitVec.toNat_ofNat]; exact Nat.mod_eq_of_lt hi
  rw [bitOf, hi3] at hbit
  rw [hbit]; simp

theorem mem_wireOrder (i : BitVec 3) : i ∈ wireOrder := by revert i; decide

/-- sendByte of a byte with a 1 in it drives SDA high at that bit (R120). -/
theorem sendByte_drives_high (v : Byte) (s : State) (h : v ≠ 0x00#8) :
    ∃ pre as, sendByte v = pre ++ as ∧ (runActs pre s).sda = .d1 := by
  obtain ⟨i, hi⟩ := exists_bitOf_of_ne_zero v h
  obtain ⟨before, after, hsplit⟩ := List.append_of_mem (mem_wireOrder i)
  refine ⟨before.flatMap (sendBit v) ++ sendBit v i, after.flatMap (sendBit v) ++ [.release .sda], ?_, ?_⟩
  · simp [sendByte, hsplit]
  · rw [runActs_append, runActs_sendBit, hi]; rfl

/-- An op outside the engine that drives SDA high does so in a part of its list (R23). -/
theorem opActs_drives_high (i : Instr) (s : State) (hop : s.op = opCodeOf i) (harg : s.arg = argByteOf s.codes i)
    (h : opCodeOf i ≠ 0x9#4) (hhigh : drivesSdaHigh i = true) :
    ∃ pre as, opActs s = pre ++ as ∧ (runActs pre s).sda = .d1 := by
  rw [opActs, hop, harg]
  cases i with
  | busStart a => exact ⟨[.drive .sda true], _, rfl, rfl⟩
  | busStop a => exact ⟨busStop, [], (List.append_nil _).symm, rfl⟩
  | sendNak a => exact ⟨sendNak, [], (List.append_nil _).symm, rfl⟩
  | sendByte v => exact sendByte_drives_high v s (by simpa [drivesSdaHigh] using hhigh)
  | readAByte | cmdTypeLb | cmdTypeHb | cmdParams | cmdStatus | cmdHumLb | cmdHumHb | cmdTempLb | cmdTempHb | cmdPresLb
  | cmdPresHb | cmdCo2Lb | cmdCo2Hb => exact absurd rfl h
  | _ => cases hhigh

/-- While the slave holds SDA low, a state with SDA driven high is contention (R23). -/
theorem contends_of_high {s : State} (hh : s.sdaHeld = true) (hsda : s.sda = .d1) : s.contends = true := by
  rw [State.contends, hh, hsda]; rfl

/-- The engine stops at its busStart while the slave holds SDA low (R23, R101). -/
theorem stops_readRegister (s : State) (hs : Settled s) (hd : s.dcnt = 0) (hop : s.op = 0x9#4)
    (hh : s.sdaHeld = true) : Stops (s.atStep .op 0) := by
  by_cases hsda : s.sda = .d1
  · exact Stops.of_contends hs.rst (contends_of_high hh hsda)
  · have hquiet : ∀ u : State, u.sda = s.sda → ∀ pre, pre <+: [] → (runActs pre u).contends = false := by
      intro u hu pre hpre
      rw [List.prefix_nil.mp hpre]
      exact contends_of_not_high (hu ▸ hsda)
    have hdecode : decodeOp s.op = .readAByte := by rw [hop]; rfl
    have hentry := reaches_phase .op s hs hd
    rw [finishPhase_op, phaseActs, opActs, hdecode, runActs, finishOp, hdecode] at hentry
    have hcount := reaches_phase .attempt (enterEngine s) (hs.of_hostSide rfl) hd (hquiet _ rfl)
    refine ((hentry (hquiet s rfl)).trans hcount).stops ?_
    exact stops_acts .sendCmd [.drive .sda true] _ 0 _ (hs.of_hostSide rfl) hd rfl rfl (contends_of_high hh rfl)

/-- The edges from an accepted request that drives SDA high stop while the slave holds SDA low (R23). -/
theorem stops_bodyOf (i : Instr) (s : State) (hs : Settled s) (hd : s.dcnt = 0) (hop : s.op = opCodeOf i)
    (harg : s.arg = argByteOf s.codes i) (hh : s.sdaHeld = true) (hhigh : drivesSdaHigh i = true) :
    Stops (s.atStep .op 0) := by
  by_cases h : opCodeOf i = 0x9#4
  · exact stops_readRegister s hs hd (hop.trans h) hh
  · obtain ⟨pre, as, hlist, hsda⟩ := opActs_drives_high i s hop harg h hhigh
    refine stops_acts .op pre as 0 (s.atStep .op 0) (hs.atStep .op 0) hd rfl hlist ?_
    rw [runActs_atStep]
    exact contends_of_high ((runActs_sdaHeld pre s).trans hh) hsda

/-! ## The two granularities -/

/-- A decoded request is accepted with the op code and the argument byte of its word (R70, R72). -/
theorem opCodeOf_decodeFields (op : BitVec 4) (arg : Byte) : opCodeOf (decodeFields op arg) = op :=
  opCode_cases (fun op => opCodeOf (decodeFields op arg) = op)
    rfl rfl rfl rfl rfl rfl rfl rfl rfl rfl rfl rfl rfl rfl rfl rfl op

theorem argByteOf_decodeFields (codes : CommandCodes) (op : BitVec 4) (arg : Byte) :
    argByteOf codes (decodeFields op arg) = arg :=
  opCode_cases (fun op => argByteOf codes (decodeFields op arg) = arg)
    rfl rfl rfl rfl rfl rfl rfl rfl rfl rfl rfl rfl rfl rfl rfl rfl op

theorem decodeRequest_portWord (s : State) : decodeRequest s.portWord = decodeFields s.reqOp s.reqArg := by
  rw [decodeRequest, State.portWord, requestOp_requestWord, requestArg_requestWord]

/-- Settles O40: after the accepting edge the edges run the op's list, or the engine attempt by attempt, to the same Respond,
and stop by contention where the request does. -/
theorem stepIsRunOfEdges : Obligations.StepIsRunOfEdges := by
  intro s hr hd
  have hstep : step s = exec (decodeFields s.reqOp s.reqArg) s := by
    rw [step, if_pos hr, decodeRequest_portWord]
  simp only [State.runsRequest, Bool.and_eq_true, List.isEmpty_iff] at hr
  obtain ⟨⟨⟨-, hsched⟩, hready⟩, hvalid⟩ := hr
  obtain ⟨-, hrst⟩ := (s.reqReady_iff).mp hready
  have hsettled : Settled (s.start s.reqOp s.reqArg) := Settled.start _ _ s hsched hrst
  have hd' : (s.start s.reqOp s.reqArg).dcnt = 0 := by simpa using hd
  have hop : (s.start s.reqOp s.reqArg).op = opCodeOf (decodeFields s.reqOp s.reqArg) := by
    rw [opCodeOf_decodeFields, State.start_op]
  have harg : (s.start s.reqOp s.reqArg).arg =
      argByteOf (s.start s.reqOp s.reqArg).codes (decodeFields s.reqOp s.reqArg) := by
    rw [argByteOf_decodeFields, State.start_arg]
  have haccept : s.contends = false → Reaches s ((s.start s.reqOp s.reqArg).atStep .op 0) := by
    intro hc
    rw [State.atStep_of_pos (s.start_pos _ _)]
    apply Reaches.of_tick
    rw [tick_accept s hready hvalid hc, State.hostMove_unscheduled (s.accept s.reqOp s.reqArg) hsched hrst]; rfl
  rw [hstep]
  constructor
  · intro t h
    obtain ⟨hn, -⟩ | ⟨hacc, rfl⟩ := exec_next_cases _ s t h
    · rw [hn] at hready; cases hready
    · rw [opCodeOf_decodeFields, argByteOf_decodeFields]
      exact (haccept (contends_of_accepted hacc)).trans
        (reaches_bodyOf _ _ hsettled hd' hop harg (by simpa using hacc.2))
  · intro f h
    cases f
    obtain ⟨hh, hhigh⟩ := (contentionStopsRequest _ s hready).mp h
    cases hc : s.contends with
    | true => exact Stops.of_contends hrst hc
    | false =>
      have hhigh : drivesSdaHigh (decodeFields s.reqOp s.reqArg) = true :=
        hhigh.resolve_left fun hsda => by rw [contends_of_high hh hsda] at hc; cases hc
      exact (haccept hc).stops (stops_bodyOf _ _ hsettled hd' hop harg (by simpa using hh) hhigh)

end Sys2Proof.Machine
end

section
/-! PROOFS. The step as the host meets it: a request word run as the instruction it decodes to (20_memory.md R57, 30_encoding.md
R70), and a running request deaf to the port (20_memory.md R66). -/

namespace Sys2Proof.Machine

/-! ## A placed instruction is the next one run -/

/-- An instruction is put to the core as the word of its op code and argument byte (R50, R70; log 8). -/
theorem Encoding.offerWord_encode (codes : CommandCodes) (i : Instr) :
    Encoding.offerWord (encode codes i) = requestWord (opCodeOf i) (argByteOf codes i) := by
  cases i <;> rfl

theorem decodeRequest_requestWord (op : BitVec 4) (arg : Byte) :
    decodeRequest (requestWord op arg) = decodeFields op arg := by
  rw [decodeRequest, requestOp_requestWord, requestArg_requestWord]

/-- The request with an instruction's op code and argument byte runs as the instruction does: it is the instruction itself, or
for a command byte the READ_A_BYTE of that byte (R50, R72; log 8). -/
theorem exec_decodeFields (i : Instr) (s : State) :
    exec (decodeFields (opCodeOf i) (argByteOf s.codes i)) s = exec i s := by
  cases i <;> rfl

theorem State.readyFor_runsRequest (w : RequestWord) (s : State) : (s.readyFor w).runsRequest = true := rfl

/-- The word that was placed stands on the port (R70). -/
theorem State.readyFor_portWord (w : RequestWord) (s : State) : (s.readyFor w).portWord = w := requestWord_fields w

theorem State.withFetchWord_of_decodes {nbits w : Nat} {i : Instr} (s : State) (h : decodeTableWord nbits w = some i) :
    s.withFetchWord nbits w = s.readyFor (Encoding.offerWord (encode s.codes i)) := by
  rw [State.withFetchWord, placeTableWord, h]

theorem step_of_runsRequest (s : State) (h : s.runsRequest = true) : step s = exec (decodeRequest s.portWord) s :=
  if_pos h

theorem step_of_not_runsRequest (s : State) (h : s.runsRequest = false) : step s = tick s :=
  if_neg (by simp [h])

/-- Settles O6: a step is its definition's two branches, and the word placed for an instruction decodes to a request that
runs as the instruction. -/
theorem stepRunsDecodedRequest : Obligations.StepRunsDecodedRequest := by
  refine ⟨step_of_runsRequest, step_of_not_runsRequest, fun s nbits w i h => ?_⟩
  rw [State.withFetchWord_of_decodes s h, step_of_runsRequest _ (State.readyFor_runsRequest _ s),
    State.readyFor_portWord, Encoding.offerWord_encode, decodeRequest_requestWord]
  exact exec_decodeFields i (s.readyFor _)

/-! ## An edge of a running request does not look at the offers -/

theorem runWrites_withoutOffers (ws : List RegWrite) (s : State) :
    (runWrites ws s).withoutOffers = runWrites ws s.withoutOffers := by
  induction ws generalizing s with
  | nil => rfl
  | cons w ws ih => rw [runWrites, runWrites, ih]; cases w <;> rfl

theorem Act.run_withoutOffers (a : Act) (s : State) : (a.run s).withoutOffers = a.run s.withoutOffers := by
  cases a with
  | drive l b => cases l <;> rfl
  | release l => cases l <;> rfl
  | lowAfter ws => rw [Act.run, Act.run, ← runWrites_withoutOffers]; rfl
  | _ => rfl

theorem runStep_withoutOffers (ph : Phase) (k : Nat) (a : Act) (s : State) :
    (runStep ph k a s).withoutOffers = runStep ph k a s.withoutOffers := by
  cases a with
  | wait n => rfl
  | _ => exact congrArg (State.atStep ph (k + 1)) (Act.run_withoutOffers _ s)

/-- Where a phase ends, no offer decides what comes next (R156). -/
theorem finishPhase_withoutOffers (ph : Phase) (s : State) :
    (finishPhase ph s).withoutOffers = finishPhase ph s.withoutOffers := by
  cases ph with
  | op =>
    rw [finishPhase_op, finishPhase_op, finishOp, finishOp, show s.withoutOffers.op = s.op from rfl]
    cases decodeOp s.op <;> rfl
  | checkAck => rw [finishPhase_checkAck, apply_ite State.withoutOffers]; rfl
  | validate => rw [finishPhase_validate, apply_ite State.withoutOffers]; rfl
  | retry => rw [finishPhase_retry, apply_ite State.withoutOffers]; rfl
  | _ => rfl

/-- What an edge of a running request does is the same whatever the host offers (R66). -/
theorem runEdge_withoutOffers (ph : Phase) (k : Nat) (s : State) :
    (runEdge ph k s).withoutOffers = runEdge ph k s.withoutOffers := by
  match hd : s.dcnt with
  | d + 2 => rw [runEdge_count ph k d s hd, runEdge_count ph k d s.withoutOffers hd]; rfl
  | 1 => rw [runEdge_last ph k s hd, runEdge_last ph k s.withoutOffers hd]; rfl
  | 0 =>
    have hlist : phaseActs ph s.withoutOffers = phaseActs ph s := phaseActs_congr ph s _ rfl rfl rfl
    cases ha : (phaseActs ph s)[k]? with
    | some a =>
      rw [runEdge_step ph k a s hd ha, runEdge_step ph k a s.withoutOffers hd (hlist ▸ ha), runStep_withoutOffers]
    | none =>
      rw [runEdge_finish ph k s hd ha, runEdge_finish ph k s.withoutOffers hd (hlist ▸ ha), finishPhase_withoutOffers]

theorem State.offerNext_withoutOffers (s : State) : s.offerNext.withoutOffers = s.withoutOffers := by
  unfold State.offerNext; split <;> rfl

/-- What the host does to `rst` and its schedule is the same whatever it offers (R214). -/
theorem State.hostMove_withoutOffers (s : State) : s.hostMove.withoutOffers = s.withoutOffers.hostMove := by
  have hnone : s.withoutOffers.hostMove =
      { s with rst := (s.schedule.head?.map HostCycle.rst).getD false, schedule := s.schedule.tail }.withoutOffers := by
    rcases s.withoutOffers.hostMove_cases with h | h <;> rw [h]
    · rfl
    · exact State.offerNext_none _ rfl
  rcases s.hostMove_cases with h | h <;> rw [hnone, h]
  exact State.offerNext_withoutOffers _

/-! ## A step of a running request -/

theorem State.pos_of_busy {s : State} (h : s.busy = true) : ∃ ph k, s.pos = .run ph k := by
  cases hp : s.pos with
  | idle => rw [(s.busy_eq_false_iff).mpr hp] at h; cases h
  | run ph k => exact ⟨ph, k, rfl⟩

/-- While a request runs no other can start (R25, R57). -/
theorem State.runsRequest_of_busy {s : State} (h : s.busy = true) : s.runsRequest = false := by
  simp [State.runsRequest, State.reqReady, h]

/-- Contention stops the core at its edge, outside reset (R23, U14). -/
theorem tick_contends (s : State) (hr : s.rst = false) (hc : s.contends = true) : tick s = .fault .contention := by
  unfold tick coreEdge
  rw [hr, hc]; rfl

/-- Outside reset a step of a running request is its contention or its edge, and then the host's move (R23, R32, R214). -/
theorem step_running (s : State) (ph : Phase) (k : Nat) (hp : s.pos = .run ph k) (hr : s.rst = false) :
    step s = if s.contends then .fault .contention else .next (runEdge ph k s).hostMove := by
  rw [step_of_not_runsRequest s (State.runsRequest_of_busy (by rw [State.busy, hp]))]
  cases hc : s.contends with
  | true => exact tick_contends s hr hc
  | false => exact tick_run s ph k hr hc hp

/-- Settles O5: contention, the running request's edge and the host's move on `rst` all are the same without the offers. -/
theorem portIgnoredWhileBusy : Obligations.PortIgnoredWhileBusy := by
  intro s s' hv hb hr
  obtain ⟨ph, k, hp⟩ := State.pos_of_busy hb
  have hpos : s.pos = s'.pos := (congrArg State.pos hv :)
  have hrst : s.rst = s'.rst := (congrArg State.rst hv :)
  have hcontends : s.contends = s'.contends := (congrArg State.contends hv :)
  have hedge : (runEdge ph k s').hostMove.withoutOffers = (runEdge ph k s).hostMove.withoutOffers := by
    rw [State.hostMove_withoutOffers, State.hostMove_withoutOffers, runEdge_withoutOffers, runEdge_withoutOffers, hv]
  rw [step_running s ph k hp hr, step_running s' ph k (hpos ▸ hp) (hrst ▸ hr), ← hcontends]
  split
  · exact ⟨fun t h => (by cases h), fun f h => h⟩
  · refine ⟨fun t h => ⟨_, rfl, ?_⟩, fun f h => by cases h⟩
    rw [← Host.Outcome.next.inj h, hedge]

end Sys2Proof.Machine
end

section
/-! PROOFS. The encoding (30_encoding.md R70 to R73, R80): the encoder and the decoder undo each other, format by format, and
the fields of a request word. -/

namespace Sys2Proof.Machine

/-! ## What the encoder writes -/

/-- The twelve command parameters are encoded as their byte, all other instructions as the word of their op code and argument
(R70, R80). -/
theorem encode_eq (codes : CommandCodes) (i : Instr) :
    encode codes i =
      if i.isCommand then .byte (argByteOf codes i) else .word (requestWord (opCodeOf i) (argByteOf codes i)) := by
  cases i <;> rfl

/-! ## Request words -/

/-- A host request is read back from its op code and argument (R72). -/
theorem decodeFields_opCodeOf (codes : CommandCodes) (i : Instr) (h : i.isCommand = false) :
    decodeFields (opCodeOf i) (argByteOf codes i) = i := by
  cases i with
  | cmdTypeLb | cmdTypeHb | cmdParams | cmdStatus | cmdHumLb | cmdHumHb | cmdTempLb | cmdTempHb | cmdPresLb | cmdPresHb
  | cmdCo2Lb | cmdCo2Hb => cases h
  | _ => rfl

/-- Every op code and argument, the reserved ones too, is written back as the word it was read from (R70, R73). -/
theorem encode_decodeFields (codes : CommandCodes) (op : BitVec 4) (arg : Byte) :
    encode codes (decodeFields op arg) = .word (requestWord op arg) :=
  opCode_cases (fun op => encode codes (decodeFields op arg) = .word (requestWord op arg))
    rfl rfl rfl rfl rfl rfl rfl rfl rfl rfl rfl rfl rfl rfl rfl rfl op

/-! ## Command bytes -/

/-- The rows of the command table are the command parameters, each with its byte (R80). -/
theorem mem_commandTable_iff (codes : CommandCodes) (b : Byte) (i : Instr) :
    (b, i) ∈ commandTable codes ↔ i.isCommand = true ∧ b = argByteOf codes i := by
  cases i <;> simp [commandTable, Instr.isCommand, argByteOf]

/-- What a command byte decodes to is a row of the table with that byte. -/
theorem mem_commandTable_of_decodeCommand {codes : CommandCodes} {b : Byte} {i : Instr}
    (h : decodeCommand codes b = .ok i) : (b, i) ∈ commandTable codes := by
  unfold decodeCommand at h
  split at h
  · rename_i row hrow
    obtain rfl : row.1 = b := by simpa using List.find?_some hrow
    cases h
    exact List.mem_of_find?_eq_some hrow
  · cases h

/-- With distinct codes a row of the table is found by its byte, since no other row has it (log 9). -/
theorem decodeCommand_of_mem {codes : CommandCodes} (hd : codes.distinct = true) {b : Byte} {i : Instr}
    (h : (b, i) ∈ commandTable codes) : decodeCommand codes b = .ok i := by
  have hnodup : ((commandTable codes).map Prod.fst).Nodup := of_decide_eq_true hd
  have hfind : (commandTable codes).find? (fun row => row.1 == b) = some (b, i) := by
    cases hf : (commandTable codes).find? (fun row => row.1 == b) with
    | none => simpa using List.find?_eq_none.mp hf (b, i) h
    | some row =>
      have hbyte : row.1 = b := by simpa using List.find?_some hf
      rw [List.inj_on_of_nodup_map hnodup (List.mem_of_find?_eq_some hf) h hbyte]
  rw [decodeCommand, hfind]

/-! ## Both formats -/

/-- Settles O10: a request word is read back field by field, and a command byte is found in its row of the table, the only one
with that byte. -/
theorem decodeOfEncodeIsSame : Obligations.DecodeOfEncodeIsSame := by
  intro codes i hd _
  rw [encode_eq]
  cases hc : i.isCommand with
  | true => exact decodeCommand_of_mem hd ((mem_commandTable_iff codes _ i).mpr ⟨hc, rfl⟩)
  | false => exact congrArg Except.ok ((decodeRequest_requestWord _ _).trans (decodeFields_opCodeOf codes i hc))

/-- Settles O11: a word is put together again from its fields, and a command byte comes from the table's row with that byte. -/
theorem encodeOfDecodeIsSame : Obligations.EncodeOfDecodeIsSame := by
  intro codes e i h
  cases e with
  | word w =>
    obtain rfl : decodeRequest w = i := Except.ok.inj h
    rw [decodeRequest, encode_decodeFields, requestWord_fields]
  | byte b =>
    obtain ⟨hc, rfl⟩ := (mem_commandTable_iff codes b i).mp (mem_commandTable_of_decodeCommand h)
    rw [encode_eq, if_pos hc]

/-- Settles O8: the decode functions are evaluated at each op code. -/
theorem decodeFunctionTable : Obligations.DecodeFunctionTable := by
  refine ⟨rfl, rfl, rfl, rfl, rfl, rfl, rfl, rfl, rfl, by decide, fun a => ?_⟩
  exact ⟨rfl, rfl, rfl, rfl, rfl, rfl, rfl, rfl, rfl, rfl, rfl, rfl, rfl, rfl, rfl, rfl⟩

/-- Settles O9: each field is an extract of the word's bits. -/
theorem wordFieldsAreBits : Obligations.WordFieldsAreBits := by
  refine fun w => ⟨fun i hi => ?_, fun i hi => ?_⟩
  · rw [requestOp, BitVec.getLsbD_extractLsb', Nat.add_comm]
    simp [hi]
  · rw [requestArg, BitVec.getLsbD_extractLsb', Nat.zero_add]
    simp [hi]

end Sys2Proof.Machine
end

section
/-! PROOFS. Instructions that run as another does: a command byte as the READ_A_BYTE of its byte (30_encoding.md R80,
42_command_engine.md R155), a reserved op as its Respond alone (R73), and an op that ignores its argument, whatever the
argument (R71). -/

namespace Sys2Proof.Machine

/-! ## READ_A_BYTE and the command bytes -/

/-- READ_A_BYTE answers the state of its transaction, from every state in which it is accepted (R151 to R155). -/
theorem exec_readAByte_readsRegister (c : Byte) (s : State) (h : Accepted (.readAByte c) s) :
    ∃ t, exec (.readAByte c) s = .next t ∧ ReadsRegister c s t := by
  obtain ⟨m, hm, ht⟩ := exec_readAByte_next c s _ h (exec_accepted _ s h)
  have hcount : (BitVec.ofNat 2 (m + 1)).toNat = m + 1 := by
    have hrange := attemptCount_range c s.sampleAt
    rw [BitVec.toNat_ofNat]
    omega
  refine ⟨_, exec_accepted _ s h, ?_⟩
  rw [ht, ← transactionResult_eq c s.sampleAt m hm]
  refine ⟨⟨?_, ?_, rfl, ?_, ?_⟩, rfl, rfl, ?_, ?_, ?_, rfl, rfl, rfl, traced_of_rtrace ?_⟩
  · simp [afterAttempts]
  · simp [afterAttempts]
  · simp [afterAttempts, rst_of_accepted h]
  · simp [afterAttempts]
  · simpa [afterAttempts, hm] using hcount
  · simp [afterAttempts, hm]
  · simp [afterAttempts, hm]
  · simp [afterAttempts, transactionEvents, hm]

/-- A command byte is sent as a READ_A_BYTE, which drives SDA high (R50, R101). -/
theorem command_request {i : Instr} (h : i.isCommand = true) : opCodeOf i = 0x9#4 ∧ drivesSdaHigh i = true := by
  cases i with
  | cmdTypeLb | cmdTypeHb | cmdParams | cmdStatus | cmdHumLb | cmdHumHb | cmdTempLb | cmdTempHb | cmdPresLb | cmdPresHb
  | cmdCo2Lb | cmdCo2Hb => exact ⟨rfl, rfl⟩
  | _ => cases h

/-- A command byte runs as the READ_A_BYTE of the byte the machine's codes give it (R80, R155; log 8). -/
theorem exec_command {i : Instr} (s : State) (h : i.isCommand = true) :
    exec i s = exec (.readAByte (argByteOf s.codes i)) s := by
  rw [← exec_decodeFields i s, (command_request h).1]
  rfl

/-- Settles O29: the twelve pairs are the rows of the command table, and a row's instruction runs as the READ_A_BYTE of its
byte. -/
theorem commandBytesRunTransaction : Obligations.CommandBytesRunTransaction := by
  intro s c i hrow hacc
  obtain ⟨hc, rfl⟩ := (mem_commandTable_iff s.codes c i).mp hrow
  have hread : Accepted (.readAByte (argByteOf s.codes i)) s := by
    have hhigh := hacc.2
    rw [(command_request hc).2] at hhigh
    exact ⟨hacc.1, hhigh⟩
  obtain ⟨t, hexec, ht⟩ := exec_readAByte_readsRegister _ s hread
  exact ⟨t, (exec_command s hc).trans hexec, hexec, ht⟩

/-! ## Reserved op codes -/

/-- `i` is the request with the reserved op code `op` and the argument `a`: it responds at once, RSP_DATA kept (R73). -/
structure RunsReserved (op : BitVec 4) (a : Byte) (i : Instr) : Prop where
  opCode : opCodeOf i = op := by rfl
  argByte : ∀ codes, argByteOf codes i = a := by exact fun _ => rfl
  body : ∀ s, bodyOf i s = s.respond s.rspData true := by exact fun _ => rfl

/-- The answer to a reserved op is its Accept and its Respond with `rsp_err = 1`, and nothing else (R73). -/
theorem RunsReserved.exec_eq {op : BitVec 4} {a : Byte} {i : Instr} {s : State} (h : RunsReserved op a i)
    (hacc : Accepted i s) : exec i s = .next ((s.start op a).respond s.rspData true) := by
  rw [exec_accepted i s hacc, h.body, h.opCode, h.argByte, State.start_rspData]

/-- The response register after a request is 1 exactly for a reserved op code (R73). -/
theorem bodyOf_rspErr (i : Instr) (s : State) : (bodyOf i s).rspErr = (decodeOp (opCodeOf i) == .reserved) := by
  cases i <;> rfl

theorem bodyOf_op (i : Instr) (s : State) : (bodyOf i s).op = s.op := by
  obtain ⟨es, u, d, e, hu, hbody⟩ := bodyOf_busRun i s
  rw [hbody, State.respond_op, hu.op]

/-- Settles O27: a reserved op's body is one Respond, and each body's `rsp_err` is read off its op code. -/
theorem reservedOpsRespondError : Obligations.ReservedOpsRespondError := by
  refine ⟨fun a s op i hrow hacc => ?_, fun i s t hacc hexec => ?_⟩
  · have h : RunsReserved op a i := by
      simp only [List.mem_cons, List.not_mem_nil, or_false, Prod.mk.injEq] at hrow
      rcases hrow with ⟨rfl, rfl⟩ | ⟨rfl, rfl⟩ | ⟨rfl, rfl⟩ | ⟨rfl, rfl⟩ | ⟨rfl, rfl⟩ | ⟨rfl, rfl⟩ | ⟨rfl, rfl⟩ <;>
        exact {}
    refine ⟨_, h.exec_eq hacc, ⟨?_, ?_, rfl, ?_, ?_⟩, ?_, ?_, rfl, rfl, ?_, ?_, traced_of_rtrace ?_⟩ <;>
      simp [State.innerRegs, rst_of_accepted hacc]
  · rw [exec_accepted i s hacc] at hexec
    obtain rfl := Host.Outcome.next.inj hexec
    rw [bodyOf_rspErr, bodyOf_op, State.start_op, beq_iff_eq]

/-! ## Ignored arguments -/

/-- The state with another argument byte latched, and another trace. -/
def State.withArgTrace (b : Byte) (tr : List Event) (s : State) : State := { s with arg := b, rtrace := tr }

/-- The argument that is latched at the accepting edge goes into ARG and the Accept event alone (R25). -/
theorem State.start_withArgTrace (op : BitVec 4) (a b : Byte) (s : State) :
    s.start op b = (s.start op a).withArgTrace b (.accept op b :: s.rtrace) := by
  rw [State.start_eq, State.start_eq]
  rfl

/-- Register writes read neither ARG nor the trace. -/
theorem runWrites_withArgTrace (ws : List RegWrite) (b : Byte) (tr : List Event) (s : State) :
    runWrites ws (s.withArgTrace b tr) = (runWrites ws s).withArgTrace b tr := by
  induction ws generalizing s with
  | nil => rfl
  | cons w ws ih => rw [runWrites, runWrites, ← ih]; cases w <;> rfl

/-- An action's event depends neither on ARG nor on the trace, and neither does anything else it does. -/
theorem Act.run_withArgTrace (a : Act) (s : State) :
    ∃ e, ∀ b tr, a.run (s.withArgTrace b tr) = (a.run s).withArgTrace b (e :: tr) := by
  cases a with
  | drive l b => exact ⟨.drive l b, fun _ _ => by cases l <;> rfl⟩
  | release l => exact ⟨.release l, fun _ _ => by cases l <;> rfl⟩
  | lowAfter ws => exact ⟨.drive .scl false, fun b tr => by rw [Act.run, runWrites_withArgTrace]; rfl⟩
  | driveBit v => exact ⟨.drive .sda (bitOf v s.bitidx), fun _ _ => rfl⟩
  | wait n => exact ⟨.wait n, fun _ _ => rfl⟩
  | sampleBit | sampleAck => exact ⟨.sample .sda s.lvlSda, fun _ _ => rfl⟩

/-- A list of actions makes the same events whatever ARG and the trace hold, and leaves the rest the same. -/
theorem runActs_withArgTrace (as : List Act) (s : State) :
    ∃ es : List Event, ∀ b tr, runActs as (s.withArgTrace b tr) = (runActs as s).withArgTrace b (es.reverse ++ tr) := by
  induction as generalizing s with
  | nil => exact ⟨[], fun _ _ => rfl⟩
  | cons a as ih =>
    obtain ⟨e, he⟩ := a.run_withArgTrace s
    obtain ⟨es, hes⟩ := ih (a.run s)
    exact ⟨e :: es, fun b tr => by simp [runActs, he, hes]⟩

/-- The requests `mk a` have one op code, run one list of actions, and respond with the value `d` of the state after it,
whatever `a` is (R71). -/
structure IgnoresArg (mk : Byte → Instr) (op : BitVec 4) (as : List Act) (d : State → Byte) (e : Bool) : Prop where
  opCode : ∀ a, opCodeOf (mk a) = op := by exact fun _ => rfl
  argByte : ∀ codes a, argByteOf codes (mk a) = a := by exact fun _ _ => rfl
  drivesHigh : ∀ a b, drivesSdaHigh (mk a) = drivesSdaHigh (mk b) := by exact fun _ _ => rfl
  body : ∀ a s, bodyOf (mk a) s = (runActs as s).respond (d (runActs as s)) e := by exact fun _ _ => rfl
  result : ∀ b tr s, d (State.withArgTrace b tr s) = d s := by exact fun _ _ _ => rfl

/-- The answers for all arguments, from one state: the same but for ARG and the Accept event (R71). -/
theorem IgnoresArg.exec_eq {mk : Byte → Instr} {op : BitVec 4} {as : List Act} {d : State → Byte} {e : Bool} {a : Byte}
    {s : State} (h : IgnoresArg mk op as d e) (hacc : Accepted (mk a) s) :
    ∃ (r : State) (es : List Event), r.op = op ∧ ∀ b, exec (mk b) s =
      .next ((r.withArgTrace b (es.reverse ++ .accept op b :: s.rtrace)).respond (d r) e) := by
  obtain ⟨es, hes⟩ := runActs_withArgTrace as (s.start op a)
  refine ⟨runActs as (s.start op a), es, (runActs_keeps as _).1.trans (s.start_op op a), fun b => ?_⟩
  have hb : Accepted (mk b) s := ⟨hacc.1, fun hh => h.drivesHigh a b ▸ hacc.2 hh⟩
  rw [exec_accepted _ s hb, h.body, h.opCode, h.argByte, s.start_withArgTrace op a b, hes, h.result]

/-- Settles O37: no list of actions reads ARG, which thirteen instructions do not use otherwise. -/
theorem ignoredArgumentChangesNothing : Obligations.IgnoredArgumentChangesNothing := by
  intro mk a b s hmk hacc
  have hign : ∃ op as d e, IgnoresArg mk op as d e := by
    rcases hmk with rfl | rfl | rfl | rfl | rfl | rfl | hres
    · exact ⟨_, busStart, State.rspData, false, {}⟩
    · exact ⟨_, busStop, State.rspData, false, {}⟩
    · exact ⟨_, readByte, State.shreg, false, {}⟩
    · exact ⟨_, checkAck, fun t => zext8 t.ackbit, false, {}⟩
    · exact ⟨_, sendAck, State.rspData, false, {}⟩
    · exact ⟨_, sendNak, State.rspData, false, {}⟩
    · rcases hres with rfl | rfl | rfl | rfl | rfl | rfl | rfl <;> exact ⟨_, [], State.rspData, true, {}⟩
  obtain ⟨op, as, d, e, h⟩ := hign
  obtain ⟨r, es, rfl, hexec⟩ := h.exec_eq hacc
  exact ⟨_, _, es, hexec a, hexec b, rfl, traced_of_rtrace rfl, traced_of_rtrace rfl⟩

end Sys2Proof.Machine
end

section
/-! PROOFS. The pseudo-instruction ATTEMPT run by the host, request by request, against one attempt of the engine (30_encoding.md
R82, 42_command_engine.md R151, R152). -/

namespace Sys2Proof.Machine

/-! ## What a host procedure does on the bus -/

/-- The core is ready, the slave lets SDA go, and of the samples `f` the next one is number `n` (R25; log 4). -/
structure HostReady (f : Nat → Level) (n : Nat) (s : State) : Prop where
  reqReady : s.reqReady = true
  sdaHeld : s.sdaHeld = false
  sampleAt : s.sampleAt = fun k => f (n + k)

/-- From `s` the host procedure `m` completes with the answer `a`, adds the events `es` on the bus in this order, and leaves the
core ready at sample number `n`. -/
def HostMakes {α : Type} (m : HostRun α) (a : α) (es : List Event) (f : Nat → Level) (n : Nat) (s : State) : Prop :=
  ∃ t new, m s = some (a, t) ∧ t.trace = s.trace ++ new ∧ new.filter Event.onBus = es ∧ HostReady f n t

/-- A procedure that issues nothing makes nothing. -/
theorem hostMakes_return {α : Type} {a : α} {f : Nat → Level} {n : Nat} {s : State} (h : HostReady f n s) :
    HostMakes (hostReturn a) a [] f n s :=
  ⟨s, [], rfl, (List.append_nil _).symm, rfl, h⟩

/-- One procedure after the other makes the events of both (R180). -/
theorem HostMakes.andThen {α β : Type} {m : HostRun α} {k : α → HostRun β} {a : α} {b : β} {es fs : List Event}
    {f : Nat → Level} {n n' : Nat} {s : State} (hm : HostMakes m a es f n s)
    (hk : ∀ t, HostReady f n t → HostMakes (k a) b fs f n' t) : HostMakes (hostThen m k) b (es ++ fs) f n' s := by
  obtain ⟨t, new, hrun, htrace, rfl, hready⟩ := hm
  obtain ⟨u, new', hrun', htrace', rfl, hready'⟩ := hk t hready
  refine ⟨u, new ++ new', ?_, ?_, List.filter_append .., hready'⟩
  · rw [hostThen, hrun]
    exact hrun'
  · rw [htrace', htrace, List.append_assoc]

/-! ## One request -/

/-- The state in which the request of `i`, put on the port by the host, has been accepted (R25). -/
def State.requested (i : Instr) (s : State) : State :=
  (s.offer (requestWord (opCodeOf i) (argByteOf s.codes i))).start (opCodeOf i) (argByteOf s.codes i)

theorem State.requested_sampleAt (i : Instr) (s : State) : (s.requested i).sampleAt = s.sampleAt := sampleAt_start _ _ _

theorem State.requested_arg (i : Instr) (s : State) : (s.requested i).arg = argByteOf s.codes i := State.start_arg _ _ _

/-- A line that assembles to the request of `i` makes the events of its bus run (R81, R180). -/
theorem hostMakes_issueLine {l : AsmLine} {i : Instr} {s u : State} {f : Nat → Level} {n : Nat} {es : List Event} {d : Byte}
    {e : Bool} (h : HostReady f n s)
    (hl : assemble s.codes l = some (requestWord (opCodeOf i) (argByteOf s.codes i)))
    (hrun : BusRun es (s.requested i) u) (hbody : bodyOf i (s.requested i) = u.respond d e) :
    HostMakes (issueLine l) d es f (n + es.countP Event.isSample) s := by
  have hacc : Accepted i (s.offer (requestWord (opCodeOf i) (argByteOf s.codes i))) :=
    ⟨h.reqReady, fun hh => absurd (h.sdaHeld.symm.trans hh) Bool.false_ne_true⟩
  have hexec : exec (decodeRequest (requestWord (opCodeOf i) (argByteOf s.codes i)))
      (s.offer (requestWord (opCodeOf i) (argByteOf s.codes i))) = .next (u.respond d e) := by
    rw [decodeRequest_requestWord, ← hbody]
    exact (exec_decodeFields i (s.offer _)).trans (exec_accepted i _ hacc)
  have hrst : u.rst = false :=
    (State.rst_of_hostSide hrun.hostSide).trans ((State.start_rst _ _ _).trans (rst_of_accepted hacc))
  have hheld : u.sdaHeld = s.sdaHeld :=
    (congrArg Prod.fst hrun.settings).trans (State.start_sdaHeld _ _ _)
  refine ⟨u.respond d e, .accept (opCodeOf i) (argByteOf s.codes i) :: es ++ [.respond d e], ?_, ?_, ?_, ?_, ?_, ?_⟩
  · rw [issueLine, hl]
    simp [issue, hexec, hrst]
  · simp [State.trace, hrun.rtrace, State.requested, State.offer]
  · rw [List.filter_append, List.filter_cons]
    simpa [Event.onBus] using hrun.onBus
  · simp [State.reqReady, hrst]
  · exact hheld.trans h.sdaHeld
  · have hshift := sampleAt_shift (s.requested i) (u.respond d e) _
      (congrArg Prod.fst hrun.settings) hrun.draws hrun.drawIx
    rw [hshift, State.requested_sampleAt, h.sampleAt]
    simp only [Nat.add_assoc]

/-- A list of actions whose trace is known makes a bus run of exactly these events. -/
theorem runActs_busRun_of_rtrace {as : List Act} {s : State} {es : List Event}
    (has : as.all (fun a => !a.releasesScl) = true) (hes : (runActs as s).rtrace = es.reverse ++ s.rtrace) :
    BusRun es s (runActs as s) := by
  obtain ⟨fs, -, hfs⟩ := runActs_busRun as s (by simpa using has)
  have heq : fs = es := List.reverse_injective (List.append_cancel_right (hfs.rtrace.symm.trans hes))
  exact heq ▸ hfs

/-! ## The requests of ATTEMPT -/

section
variable {f : Nat → Level} {n : Nat} {s : State}

theorem hostMakes_busStart (h : HostReady f n s) :
    ∃ a, HostMakes (issueLine (.op .busStart [])) a busStartEvents f n s :=
  ⟨_, hostMakes_issueLine (i := .busStart 0x00#8) h rfl
    (runActs_busRun_of_rtrace rfl (congrArg State.rtrace (runActs_busStart _))) rfl⟩

theorem hostMakes_sendByte (c : Byte) (h : HostReady f n s) :
    ∃ a, HostMakes (issueLine (.op .sendByte [.imm c.toNat])) a (sendByteEvents c) f n s := by
  have hl : assemble s.codes (.op .sendByte [.imm c.toNat]) = some (requestWord 0x4#4 c) := by
    simp [assemble, AsmLine.wellFormed, AsmOperand.wellFormed, AsmOperand.value, Mnemonic.takesOperand, Mnemonic.opcode,
      c.isLt]
  have hbody : bodyOf (.sendByte c) (s.requested (.sendByte c)) =
      (runActs (sendByte c) (s.requested (.sendByte c))).respondKept :=
    congrArg (fun v => (runActs (sendByte v) (s.requested (.sendByte c))).respondKept) (s.requested_arg (.sendByte c))
  exact ⟨_, hostMakes_issueLine (i := .sendByte c) h hl
    (runActs_busRun_of_rtrace rfl (congrArg State.rtrace (runActs_sendByte c _))) hbody⟩

/-- CHECK_ACK gives the host the next sample (R129). -/
theorem hostMakes_checkAck (h : HostReady f n s) :
    HostMakes (issueLine (.op .checkAck [])) (zext8 (f n)) (releasedBitEvents (f n)) f (n + 1) s := by
  have hf : (s.requested (.checkAck 0x00#8)).sampleAt 0 = f n := by rw [State.requested_sampleAt, h.sampleAt]; rfl
  rw [← hf]
  exact hostMakes_issueLine (i := .checkAck 0x00#8) h rfl
    (runActs_busRun_of_rtrace rfl (congrArg State.rtrace (runActs_checkAck _))) rfl

/-- READ_BYTE gives the host the byte of the next eight samples (R125). -/
theorem hostMakes_readByte (h : HostReady f n s) :
    HostMakes (issueLine (.op .readByte [])) (byteAt f n) (readByteEvents f n) f (n + 8) s := by
  have hspec := runActs_readByte (s.requested (.readByte 0x00#8))
  rw [State.requested_sampleAt, h.sampleAt, byteAt_shift, readByteEvents_shift] at hspec
  have hbody : bodyOf (.readByte 0x00#8) (s.requested (.readByte 0x00#8)) =
      (runActs readByte (s.requested (.readByte 0x00#8))).respond (byteAt f n) false :=
    congrArg (fun d => (runActs readByte (s.requested (.readByte 0x00#8))).respond d false) (congrArg State.shreg hspec)
  exact hostMakes_issueLine (i := .readByte 0x00#8) h rfl
    (runActs_busRun_of_rtrace rfl (congrArg State.rtrace hspec)) hbody

theorem hostMakes_sendAck (h : HostReady f n s) :
    ∃ a, HostMakes (issueLine (.op .sendAck [])) a sendAckEvents f n s :=
  ⟨_, hostMakes_issueLine (i := .sendAck 0x00#8) h rfl
    (runActs_busRun_of_rtrace rfl (congrArg State.rtrace (runActs_sendAck _))) rfl⟩

theorem hostMakes_sendNak (h : HostReady f n s) :
    ∃ a, HostMakes (issueLine (.op .sendNak [])) a sendNakEvents f n s :=
  ⟨_, hostMakes_issueLine (i := .sendNak 0x00#8) h rfl
    (runActs_busRun_of_rtrace rfl (congrArg State.rtrace (runActs_sendNak _))) rfl⟩

theorem hostMakes_busStop (h : HostReady f n s) :
    ∃ a, HostMakes (issueLine (.op .busStop [])) a busStopEvents f n s :=
  ⟨_, hostMakes_issueLine (i := .busStop 0x00#8) h rfl
    (runActs_busRun_of_rtrace rfl (congrArg State.rtrace (runActs_busStop _))) rfl⟩

/-- A request whose answer the host does not look at, and then the rest. -/
theorem hostMakes_ignoring {α β : Type} {m : HostRun α} {r : HostRun β} {b : β} {es fs : List Event} {n' : Nat}
    (hm : ∃ a, HostMakes m a es f n s) (hr : ∀ t, HostReady f n t → HostMakes r b fs f n' t) :
    HostMakes (hostThen m fun _ => r) b (es ++ fs) f n' s := by
  obtain ⟨a, ha⟩ := hm
  exact ha.andThen hr

end

/-! ## The attempt by hand -/

/-- What the host issues after CHECK_ACK's result `ack`: BUS_STOP, after the four marked requests on an acknowledge (R82). -/
def afterCheckAck (ack : Byte) : HostRun (Option (Byte × Byte)) :=
  if ack != 0x00#8 then
    hostThen (issueLine (.op .busStop [])) fun _ => hostReturn none
  else
    hostThen (issueLine (.op .readByte [])) fun value =>
    hostThen (issueLine (.op .sendAck [])) fun _ =>
    hostThen (issueLine (.op .readByte [])) fun checksum =>
    hostThen (issueLine (.op .sendNak [])) fun _ =>
    hostThen (issueLine (.op .busStop [])) fun _ => hostReturn (some (value, checksum))

theorem attemptByHand_eq (cmd : AsmOperand) :
    attemptByHand cmd =
      hostThen (issueLine (.op .busStart [])) fun _ =>
      hostThen (issueLine (.op .sendByte [cmd])) fun _ =>
      hostThen (issueLine (.op .checkAck [])) afterCheckAck := rfl

/-- Without an acknowledge the host only makes the stop (R151). -/
theorem hostMakes_afterCheckAck_nak {f : Nat → Level} {n : Nat} {s : State} (h : HostReady f n s) :
    HostMakes (afterCheckAck (zext8 true)) none (busStopEvents ++ []) f n s :=
  hostMakes_ignoring (hostMakes_busStop h) fun _ => hostMakes_return

/-- On an acknowledge the host reads and answers the value and the checksum byte (R152). -/
theorem hostMakes_afterCheckAck_ack {f : Nat → Level} {n : Nat} {s : State} (h : HostReady f n s) :
    HostMakes (afterCheckAck (zext8 false)) (some (byteAt f n, byteAt f (n + 8)))
      (readByteEvents f n ++ (sendAckEvents ++ (readByteEvents f (n + 8) ++ (sendNakEvents ++ (busStopEvents ++ [])))))
      f (n + 8 + 8) s :=
  (hostMakes_readByte h).andThen fun _ h1 =>
    hostMakes_ignoring (hostMakes_sendAck h1) fun _ h2 =>
      (hostMakes_readByte h2).andThen fun _ h3 =>
        hostMakes_ignoring (hostMakes_sendNak h3) fun _ h4 =>
          hostMakes_ignoring (hostMakes_busStop h4) fun _ => hostMakes_return

/-- The host's requests make the bus events of the engine's first attempt, and answer its two bytes if it is acknowledged (R82,
R151, R152). -/
theorem hostMakes_attemptByHand (c : Byte) {f : Nat → Level} {s : State} (h : HostReady f 0 s) :
    ∃ n, HostMakes (attemptByHand (.imm c.toNat)) (if f 0 then none else some (byteAt f 1, byteAt f 9))
      (attemptEvents c f 0) f n s := by
  have hhead : ∀ {a fs n}, (∀ t, HostReady f 1 t → HostMakes (afterCheckAck (zext8 (f 0))) a fs f n t) →
      HostMakes (attemptByHand (.imm c.toNat)) a
        (busStartEvents ++ (sendByteEvents c ++ (releasedBitEvents (f 0) ++ fs))) f n s := fun hk =>
    attemptByHand_eq _ ▸ hostMakes_ignoring (hostMakes_busStart h) fun _ h1 =>
      hostMakes_ignoring (hostMakes_sendByte c h1) fun _ h2 => (hostMakes_checkAck h2).andThen hk
  cases hf : f 0 with
  | true =>
    rw [hf] at hhead
    exact ⟨_, by simpa [attemptEvents, attemptStart, hf] using hhead fun _ => hostMakes_afterCheckAck_nak⟩
  | false =>
    rw [hf] at hhead
    exact ⟨_, by simpa [attemptEvents, attemptStart, hf] using hhead fun _ => hostMakes_afterCheckAck_ack⟩

/-- Settles O36: request by request the host makes the events of one attempt, those the engine makes from the same samples. -/
theorem attemptByHandEqualsAttempt : Obligations.AttemptByHandEqualsAttempt := by
  intro c s hr hh
  obtain ⟨n, t, new, hrun, htrace, hbus, -⟩ :=
    hostMakes_attemptByHand c (s := s) ⟨hr, hh, funext fun k => congrArg s.sampleAt (Nat.zero_add k).symm⟩
  have hattempt := attempt_indexed (s.withCmd c) s.sampleAt 0
    (funext fun k => congrArg s.sampleAt (Nat.zero_add k).symm)
  have hengine : (attempt (s.withCmd c)).trace = s.trace ++ attemptEvents c s.sampleAt 0 :=
    trace_of_rtrace (congrArg State.rtrace hattempt)
  exact ⟨_, t, _, new, hrun, hengine, htrace, hbus, rfl⟩

end Sys2Proof.Machine
end

section
/-! PROOFS. The ops that only drive the lines and wait: DELAY, BUS_START, BUS_STOP (40_framing_timing.md R100 to R105). -/

namespace Sys2Proof.Machine

/-- The state after the events `es` that leave the lines at `sda` and `scl` and write no other register; a Wait among them
leaves DCNT at 0 (R35). -/
def State.withLines (sda scl : Drive) (es : List Event) (s : State) : State :=
  { s with sda := sda, scl := scl, dcnt := 0, rtrace := es.reverse ++ s.rtrace }

theorem runActs_busDelay (n : Nat) (s : State) :
    runActs (busDelay n) s = s.withLines s.sda s.scl [.wait n] := rfl

theorem bodyOf_delay (n : Byte) (s : State) :
    bodyOf (.delay n) s = (s.withLines s.sda s.scl [.wait s.arg.toNat]).respondKept :=
  congrArg State.respondKept (runActs_busDelay _ s)

theorem bodyOf_busStart (a : Byte) (s : State) :
    bodyOf (.busStart a) s = (s.withLines .d0 .d1 busStartEvents).respondKept :=
  congrArg State.respondKept (runActs_busStart s)

theorem bodyOf_busStop (a : Byte) (s : State) :
    bodyOf (.busStop a) s = (s.withLines .d1 .d1 busStopEvents).respondKept :=
  congrArg State.respondKept (runActs_busStop s)

/-- An accepted instruction whose body only drives the lines and waits completes with RSP_DATA and the inner registers
kept. -/
theorem exec_withLines {i : Instr} {s : State} {sda scl : Drive} {es : List Event} (hacc : Accepted i s)
    (hbody : bodyOf i (s.start (opCodeOf i) (argByteOf s.codes i)) =
      ((s.start (opCodeOf i) (argByteOf s.codes i)).withLines sda scl es).respondKept) :
    ∃ t, exec i s = .next t ∧ Completes (opCodeOf i) (argByteOf s.codes i) s t ∧ t.sda = sda ∧ t.scl = scl ∧
      t.rspData = s.rspData ∧ t.rspErr = false ∧ t.innerRegs = s.innerRegs ∧ t.dcnt = 0 ∧
      Traced (opCodeOf i) (argByteOf s.codes i) es s t := by
  refine ⟨_, (exec_accepted i s hacc).trans (congrArg _ hbody), ⟨?_, ?_, rfl, ?_, ?_⟩, rfl, rfl, ?_, rfl, ?_, rfl,
    traced_of_rtrace ?_⟩ <;>
    simp [State.withLines, State.innerRegs, rst_of_accepted hacc]

/-- Settles O13: DELAY's body is one Wait of the units latched in ARG at the accepting edge. -/
theorem delayWaitsItsUnits : Obligations.DelayWaitsItsUnits := by
  intro n s hacc
  refine exec_withLines hacc ?_
  rw [bodyOf_delay, State.start_sda, State.start_scl, State.start_arg]
  rfl

/-- Settles O14: BUS_START's body is busStart, whose events leave SDA low and SCL high. -/
theorem busStartMakesStart : Obligations.BusStartMakesStart :=
  fun a _ hacc => exec_withLines hacc (bodyOf_busStart a _)

/-- Settles O15: BUS_STOP's body is busStop, whose events leave both lines high. -/
theorem busStopLeavesIdleBus : Obligations.BusStopLeavesIdleBus :=
  fun a _ hacc => exec_withLines hacc (bodyOf_busStop a _)

end Sys2Proof.Machine
end

section
/-! PROOFS. The bit-level ops SEND_BYTE, READ_BYTE, CHECK_ACK, SEND_ACK, SEND_NAK: what each leaves (41_bit_transfer.md R120 to
R133), and the loopback of a byte (R126). -/

namespace Sys2Proof.Machine

/-! ## The procedures as bus runs -/

theorem sendByte_busRun (v : Byte) (s : State) : BusRun (sendByteEvents v) s (runActs (sendByte v) s) :=
  runActs_busRun_of_rtrace rfl (congrArg State.rtrace (runActs_sendByte v s))

theorem readByte_busRun (s : State) : BusRun (readByteEvents s.sampleAt 0) s (runActs readByte s) :=
  runActs_busRun_of_rtrace rfl (congrArg State.rtrace (runActs_readByte s))

theorem checkAck_busRun (s : State) : BusRun (releasedBitEvents (s.sampleAt 0)) s (runActs checkAck s) :=
  runActs_busRun_of_rtrace rfl (congrArg State.rtrace (runActs_checkAck s))

theorem sendAck_busRun (s : State) : BusRun sendAckEvents s (runActs sendAck s) :=
  runActs_busRun_of_rtrace rfl (congrArg State.rtrace (runActs_sendAck s))

theorem sendNak_busRun (s : State) : BusRun sendNakEvents s (runActs sendNak s) :=
  runActs_busRun_of_rtrace rfl (congrArg State.rtrace (runActs_sendNak s))

theorem busStart_busRun (s : State) : BusRun busStartEvents s (runActs busStart s) :=
  runActs_busRun_of_rtrace rfl (congrArg State.rtrace (runActs_busStart s))

theorem busStop_busRun (s : State) : BusRun busStopEvents s (runActs busStop s) :=
  runActs_busRun_of_rtrace rfl (congrArg State.rtrace (runActs_busStop s))

/-! ## The ops -/

/-- An accepted instruction whose body is the bus run `es` and a Respond completes with these events (R25, R26, R28). -/
theorem exec_of_busRun {i : Instr} {s u : State} {es : List Event} {d : Byte} {e : Bool} (hacc : Accepted i s)
    (hrun : BusRun es (s.start (opCodeOf i) (argByteOf s.codes i)) u)
    (hbody : bodyOf i (s.start (opCodeOf i) (argByteOf s.codes i)) = u.respond d e) :
    exec i s = .next (u.respond d e) ∧ Completes (opCodeOf i) (argByteOf s.codes i) s (u.respond d e) ∧
      Traced (opCodeOf i) (argByteOf s.codes i) es s (u.respond d e) := by
  have hrst : u.rst = s.rst := (State.rst_of_hostSide hrun.hostSide).trans (State.start_rst _ _ _)
  refine ⟨(exec_accepted i s hacc).trans (congrArg _ hbody), ⟨?_, ?_, rfl, ?_, hrst⟩, traced_of_rtrace ?_⟩
  · simp [hrun.op]
  · simp [hrun.arg]
  · simp [hrst, rst_of_accepted hacc]
  · simp [hrun.rtrace]

theorem bodyOf_sendByte (v : Byte) (s : State) :
    bodyOf (.sendByte v) s = (runActs (sendByte s.arg) s).respond (runActs (sendByte s.arg) s).rspData false := rfl

theorem bodyOf_readByte (a : Byte) (s : State) :
    bodyOf (.readByte a) s = (runActs readByte s).respond (byteAt s.sampleAt 0) false :=
  congrArg (fun d => (runActs readByte s).respond d false) (congrArg State.shreg (runActs_readByte s))

theorem bodyOf_checkAck (a : Byte) (s : State) :
    bodyOf (.checkAck a) s = (runActs checkAck s).respond (zext8 (s.sampleAt 0)) false := rfl

theorem bodyOf_sendAck (a : Byte) (s : State) :
    bodyOf (.sendAck a) s = (s.withLines .d0 .d0 sendAckEvents).respondKept :=
  congrArg State.respondKept (runActs_sendAck s)

theorem bodyOf_sendNak (a : Byte) (s : State) :
    bodyOf (.sendNak a) s = (s.withLines .d1 .d1 sendNakEvents).respondKept :=
  congrArg State.respondKept (runActs_sendNak s)

/-- Settles O17: SEND_BYTE's body is the sendByte of the byte latched in ARG at the accepting edge. -/
theorem sendByteShiftsOutMsbFirst : Obligations.SendByteShiftsOutMsbFirst := by
  intro v s hacc
  have hbody := bodyOf_sendByte v (s.start 0x4#4 v)
  rw [State.start_arg] at hbody
  obtain ⟨hexec, hcompletes, htraced⟩ := exec_of_busRun hacc (sendByte_busRun v _) hbody
  refine ⟨_, hexec, hcompletes, ?_, ?_, ?_, rfl, ?_, ?_, htraced⟩ <;>
    simp [runActs_sendByte, State.innerRegs, opCodeOf, argByteOf]

/-- One bit of a byte into which bits were OR-ed (R124). -/
theorem getLsbD_orBit (sh : Byte) (b : Level) (i : BitVec 3) (k : Nat) (hk : k < 8) :
    (orBit sh b i).getLsbD k = (sh.getLsbD k || (b && decide (k = i.toNat))) := by
  have hbit : (zext8 b <<< i.toNat).getLsbD k = (b && decide (k = i.toNat)) := by
    cases b with
    | false => simp [zext8]
    | true =>
      rw [zext8, if_pos rfl, BitVec.getLsbD_shiftLeft, BitVec.getLsbD_one, Bool.eq_iff_iff]
      simp [hk]
      omega
  rw [orBit, BitVec.getLsbD_or, hbit]

/-- Bit `i` of the byte is sample number `7 - i` of its eight (R124). -/
theorem getLsbD_byteAt (f : Nat → Level) (k i : Nat) (hi : i < 8) : (byteAt f k).getLsbD i = f (k + (7 - i)) := by
  rw [byteAt, ← orBit_byte]
  simp only [getLsbD_orBit _ _ _ i hi]
  interval_cases i <;> simp

/-- Settles O18: READ_BYTE's body is readByte, and its Respond carries the byte assembled from the eight samples. -/
theorem readByteAssemblesSamples : Obligations.ReadByteAssemblesSamples := by
  intro a s hacc
  have hrun := readByte_busRun (s.start 0x5#4 a)
  have hbody := bodyOf_readByte a (s.start 0x5#4 a)
  rw [sampleAt_start] at hrun hbody
  obtain ⟨hexec, hcompletes, htraced⟩ := exec_of_busRun hacc hrun hbody
  refine ⟨_, hexec, hcompletes, ?_, ?_, rfl, fun i hi => ?_, rfl, ?_, ?_, htraced⟩
  · simp [runActs_readByte]
  · simp [runActs_readByte]
  · simpa using getLsbD_byteAt s.sampleAt 0 i hi
  · simp [runActs_readByte, State.innerRegs, sampleAt_start]
  · simp [runActs_readByte]

/-- Settles O19: CHECK_ACK's body is checkAck, and its Respond carries the sample widened to a byte. -/
theorem checkAckReportsSample : Obligations.CheckAckReportsSample := by
  intro a s hacc
  have hrun := checkAck_busRun (s.start 0x6#4 a)
  have hbody := bodyOf_checkAck a (s.start 0x6#4 a)
  rw [sampleAt_start] at hrun hbody
  obtain ⟨hexec, hcompletes, htraced⟩ := exec_of_busRun hacc hrun hbody
  refine ⟨_, hexec, hcompletes, rfl, rfl, rfl, rfl, ?_, rfl, htraced⟩
  simp [runActs_checkAck, State.innerRegs, sampleAt_start]

/-- Settles O20: SEND_ACK's body is sendACK, whose events leave both lines low. -/
theorem sendAckPulsesLow : Obligations.SendAckPulsesLow :=
  fun a _ hacc => exec_withLines hacc (bodyOf_sendAck a _)

/-- Settles O21: SEND_NAK's body is sendNAK, whose events leave both lines high. -/
theorem sendNakLeavesClockHigh : Obligations.SendNakLeavesClockHigh :=
  fun a _ hacc => exec_withLines hacc (bodyOf_sendNak a _)

/-! ## The loopback -/

theorem sdaAtRises_append (p : Pads) (es fs : List Event) :
    sdaAtRises p (es ++ fs) = sdaAtRises p es ++ sdaAtRises (padsAfterAll p es) fs := by
  induction es generalizing p with
  | nil => rfl
  | cons e es ih =>
    simp only [List.cons_append, sdaAtRises, ih]
    split <;> rfl

/-- The one SCL rise of a bit shows its data level, from whatever drive states the bit begins in (R120). -/
theorem sdaAtRises_sendBitEvents (p : Pads) (b : Level) : sdaAtRises p (sendBitEvents b) = [b] := by
  cases b <;> simp [sdaAtRises, sendBitEvents, padsAfter, Drive.ofLevel, driveLevel]

/-- The levels a slave records of bits sent one after the other are the bits (R126). -/
theorem sdaAtRises_sendBits (p : Pads) (f : Nat → Level) (is : List Nat) :
    sdaAtRises p (is.flatMap fun i => sendBitEvents (f i)) = is.map f := by
  induction is generalizing p with
  | nil => rfl
  | cons i is ih => rw [List.flatMap_cons, sdaAtRises_append, sdaAtRises_sendBitEvents, ih]; rfl

theorem sdaAtRises_sendByteEvents (p : Pads) (v : Byte) :
    sdaAtRises p (sendByteEvents v) = [7, 6, 5, 4, 3, 2, 1, 0].map v.getLsbD := by
  rw [sendByteEvents, sdaAtRises_append, sdaAtRises_sendBits]
  simp [sdaAtRises]

/-- With SDA not held, the first samples are the script's (R16). -/
theorem sampleAt_withScript (s : State) (ls more : List Level) (k : Nat) (hh : s.sdaHeld = false) (hk : k < ls.length) :
    (s.withScript (ls ++ more)).sampleAt k = ls[k] := by
  simp [State.sampleAt, State.withScript, hh, List.getElem?_append_left hk, hk]

/-- A request from a state whose slave lets SDA go meets no contention (R23). -/
theorem accepted_of_not_held (i : Instr) {s : State} (hr : s.reqReady = true) (hh : s.sdaHeld = false) : Accepted i s :=
  ⟨hr, fun h => absurd (hh.symm.trans h) Bool.false_ne_true⟩

/-- A completed request leaves the core ready, if `rst` was low (R25, R27). -/
theorem reqReady_of_completes {op : BitVec 4} {arg : Byte} {s t : State} (h : Completes op arg s t)
    (hr : s.rst = false) : t.reqReady = true := by
  obtain ⟨-, -, hbusy, -, hrst⟩ := h
  rw [State.reqReady, hbusy, hrst, hr]; rfl

/-- Settles O22: the slave records the bits in wire order, and READ_BYTE assembles its samples in the same order. -/
theorem loopbackReturnsByteSent : Obligations.LoopbackReturnsByteSent := by
  intro v a s hr hh
  have hacc := accepted_of_not_held (.sendByte v) hr hh
  obtain ⟨t, hexec, hcompletes, -, -, -, -, -, -, htraced⟩ := sendByteShiftsOutMsbFirst v s hacc
  refine ⟨sendByteEvents v, t, hexec, htraced, fun more => ?_⟩
  have hheld : t.sdaHeld = false := (sdaHeld_of_settings (exec_keeps_settings _ s t hexec)).trans hh
  rw [sdaAtRises_sendByteEvents]
  have hread := accepted_of_not_held (.readByte a)
    (s := t.withScript ([7, 6, 5, 4, 3, 2, 1, 0].map v.getLsbD ++ more))
    (reqReady_of_completes hcompletes (rst_of_accepted hacc)) hheld
  obtain ⟨u, hu, -, -, -, -, hbits, -⟩ := readByteAssemblesSamples a _ hread
  refine ⟨u, hu, BitVec.eq_of_getLsbD_eq fun i hi => ?_⟩
  rw [hbits i hi, sampleAt_withScript t _ more (7 - i) hheld (by simp; omega)]
  interval_cases i <;> rfl

end Sys2Proof.Machine
end

section
/-! PROOFS. What is observed of the procedures' traces: SCL rises (41_bit_transfer.md R146), changes of SDA (R145), numbers of
events (R148), and the lines at each Sample (R147). Each fact is proved of one bit's events, then of the procedure's. -/

namespace Sys2Proof.Machine

/-! ## SCL rises -/

theorem sclRises_flatMap {g : Nat → List Event} {n : Nat} (h : ∀ p i, sclRises p (g i) = n) (p : Pads) (is : List Nat) :
    sclRises p (is.flatMap g) = is.length * n := by
  induction is generalizing p with
  | nil => simp [sclRises]
  | cons i is ih => rw [List.flatMap_cons, sclRises_append, h, ih, List.length_cons, Nat.add_one_mul, Nat.add_comm]

/-- A bit sent has one rise, since its first event drives SCL low (R120). -/
theorem sclRises_sendBitEvents (p : Pads) (b : Level) : sclRises p (sendBitEvents b) = 1 := by
  simp [sclRises, sendBitEvents, padsAfter, Drive.ofLevel]

/-- A bit read has one rise, since its first event drives SCL low (R124). -/
theorem sclRises_readBitEvents (p : Pads) (b : Level) : sclRises p (readBitEvents b) = 1 := by
  simp [sclRises, readBitEvents, padsAfter, Drive.ofLevel]

theorem sclRises_releasedBitEvents (p : Pads) (b : Level) : sclRises p (releasedBitEvents b) = 1 := by
  simp [sclRises, releasedBitEvents, padsAfter, Drive.ofLevel]

theorem sclRises_sendByteEvents (p : Pads) (v : Byte) : sclRises p (sendByteEvents v) = 8 := by
  rw [sendByteEvents, sclRises_append, sclRises_flatMap fun p i => sclRises_sendBitEvents p _]
  simp [sclRises]

theorem sclRises_readByteEvents (p : Pads) (f : Nat → Level) (k : Nat) : sclRises p (readByteEvents f k) = 8 := by
  rw [readByteEvents, sclRises_append, sclRises_releasedBitEvents, sclRises_flatMap fun p j => sclRises_readBitEvents p _]
  rfl

theorem sclRises_sendNakEvents (p : Pads) : sclRises p sendNakEvents = 1 := by
  simp [sclRises, sendNakEvents, padsAfter, Drive.ofLevel]

/-- busStart drives SCL high without driving it low first (R101). -/
theorem sclRises_busStartEvents (p : Pads) : sclRises p busStartEvents = if p.2 = .d0 then 1 else 0 := by
  simp [sclRises, busStartEvents, padsAfter]

theorem sclRises_busStopEvents (p : Pads) : sclRises p busStopEvents = 1 := by
  simp [sclRises, busStopEvents, padsAfter, Drive.ofLevel]

/-- Settles O23: eight bits, one bit or one clock pulse, each with one rise; busStart's depends on the SCL it finds. -/
theorem clockRisesPerProcedure : Obligations.ClockRisesPerProcedure := by
  intro v s acts n _ h
  simp only [List.mem_cons, List.not_mem_nil, or_false, Prod.mk.injEq] at h
  obtain ⟨rfl, rfl⟩ | ⟨rfl, rfl⟩ | ⟨rfl, rfl⟩ | ⟨rfl, rfl⟩ | ⟨rfl, rfl⟩ | ⟨rfl, rfl⟩ | ⟨rfl, rfl⟩ := h
  · exact ⟨_, (sendByte_busRun v s).trace, sclRises_sendByteEvents _ v⟩
  · exact ⟨_, (readByte_busRun s).trace, sclRises_readByteEvents _ _ _⟩
  · exact ⟨_, (checkAck_busRun s).trace, sclRises_releasedBitEvents _ _⟩
  · exact ⟨_, (sendAck_busRun s).trace, sclRises_sendBitEvents _ false⟩
  · exact ⟨_, (sendNak_busRun s).trace, sclRises_sendNakEvents _⟩
  · exact ⟨_, (busStart_busRun s).trace, sclRises_busStartEvents _⟩
  · exact ⟨_, (busStop_busRun s).trace, sclRises_busStopEvents _⟩

/-! ## Changes of SDA while SCL is high -/

theorem sdaChangesWhileHigh_flatMap {g : Nat → List Event} (h : ∀ p i, sdaChangesWhileHigh p (g i) = 0) (p : Pads)
    (is : List Nat) : sdaChangesWhileHigh p (is.flatMap g) = 0 := by
  induction is generalizing p with
  | nil => rfl
  | cons i is ih => rw [List.flatMap_cons, sdaChangesWhileHigh_append, h, ih]

/-- SDA takes a bit's level after SCL was driven low (R120). -/
theorem sdaChangesWhileHigh_sendBitEvents (p : Pads) (b : Level) : sdaChangesWhileHigh p (sendBitEvents b) = 0 := by
  simp [sdaChangesWhileHigh, sendBitEvents, padsAfter, Drive.ofLevel]

theorem sdaChangesWhileHigh_readBitEvents (p : Pads) (b : Level) : sdaChangesWhileHigh p (readBitEvents b) = 0 := by
  simp [sdaChangesWhileHigh, readBitEvents, padsAfter]

/-- SDA is released after SCL was driven low (R124, R128). -/
theorem sdaChangesWhileHigh_releasedBitEvents (p : Pads) (b : Level) :
    sdaChangesWhileHigh p (releasedBitEvents b) = 0 := by
  simp [sdaChangesWhileHigh, releasedBitEvents, padsAfter, Drive.ofLevel]

/-- The bits of a sendByte end with SCL low, and so SDA is released while it is (R120). -/
theorem padsAfterAll_sendBits (p : Pads) (v : Byte) :
    padsAfterAll p ([7, 6, 5, 4, 3, 2, 1, 0].flatMap fun i => sendBitEvents (v.getLsbD i)) =
      (Drive.ofLevel (v.getLsbD 0), .d0) := rfl

theorem sdaChangesWhileHigh_sendByteEvents (p : Pads) (v : Byte) : sdaChangesWhileHigh p (sendByteEvents v) = 0 := by
  rw [sendByteEvents, sdaChangesWhileHigh_append, padsAfterAll_sendBits,
    sdaChangesWhileHigh_flatMap fun p i => sdaChangesWhileHigh_sendBitEvents p _]
  simp [sdaChangesWhileHigh]

theorem sdaChangesWhileHigh_readByteEvents (p : Pads) (f : Nat → Level) (k : Nat) :
    sdaChangesWhileHigh p (readByteEvents f k) = 0 := by
  rw [readByteEvents, sdaChangesWhileHigh_append, sdaChangesWhileHigh_releasedBitEvents,
    sdaChangesWhileHigh_flatMap fun p j => sdaChangesWhileHigh_readBitEvents p _]

theorem sdaChangesWhileHigh_sendNakEvents (p : Pads) : sdaChangesWhileHigh p sendNakEvents = 0 := by
  simp [sdaChangesWhileHigh, sendNakEvents, padsAfter, Drive.ofLevel]

/-- busStart's fall of SDA is made at SCL high, and its first event too if SCL is high then (R101, R145). -/
theorem sdaChangesWhileHigh_busStartEvents (p : Pads) :
    sdaChangesWhileHigh p busStartEvents = if p.2 = .d1 ∧ p.1 ≠ .d1 then 2 else 1 := by
  simp only [sdaChangesWhileHigh, busStartEvents, padsAfter, Drive.ofLevel, ne_eq, eq_comm (a := p.1), and_comm]
  by_cases h : p.2 = .d1 ∧ ¬Drive.d1 = p.1 <;> simp [h]

/-- busStop's rise of SDA is made at SCL high (R104, R145). -/
theorem sdaChangesWhileHigh_busStopEvents (p : Pads) : sdaChangesWhileHigh p busStopEvents = 1 := by
  simp [sdaChangesWhileHigh, busStopEvents, padsAfter, Drive.ofLevel]

/-- Settles O24: every bit moves SDA after its own clock fall; the start and the stop move it at SCL high. -/
theorem sdaChangesOnlyWhileClockLow : Obligations.SdaChangesOnlyWhileClockLow := by
  intro v s acts n h
  simp only [List.mem_cons, List.not_mem_nil, or_false, Prod.mk.injEq] at h
  obtain ⟨rfl, rfl⟩ | ⟨rfl, rfl⟩ | ⟨rfl, rfl⟩ | ⟨rfl, rfl⟩ | ⟨rfl, rfl⟩ | ⟨rfl, rfl⟩ | ⟨rfl, rfl⟩ := h
  · exact ⟨_, (sendByte_busRun v s).trace, sdaChangesWhileHigh_sendByteEvents _ v⟩
  · exact ⟨_, (readByte_busRun s).trace, sdaChangesWhileHigh_readByteEvents _ _ _⟩
  · exact ⟨_, (checkAck_busRun s).trace, sdaChangesWhileHigh_releasedBitEvents _ _⟩
  · exact ⟨_, (sendAck_busRun s).trace, sdaChangesWhileHigh_sendBitEvents _ false⟩
  · exact ⟨_, (sendNak_busRun s).trace, sdaChangesWhileHigh_sendNakEvents _⟩
  · exact ⟨_, (busStart_busRun s).trace, sdaChangesWhileHigh_busStartEvents _⟩
  · exact ⟨_, (busStop_busRun s).trace, sdaChangesWhileHigh_busStopEvents _⟩

/-! ## Numbers of events -/

/-- A list of `n` events with `w` waits, all of them of `T_PH`, and `m` samples (R148). -/
structure PhaseCounts (es : List Event) (n w m : Nat) : Prop where
  length : es.length = n := by rfl
  waits : es.countP Event.isWait = w := by rfl
  samples : es.countP Event.isSample = m := by rfl
  waitUnits : ∀ e ∈ es, e.isWait = true → e = .wait Config.tPh

theorem PhaseCounts.append {es fs : List Event} {n w m n' w' m' : Nat} (h : PhaseCounts es n w m)
    (k : PhaseCounts fs n' w' m') : PhaseCounts (es ++ fs) (n + n') (w + w') (m + m') where
  length := by rw [List.length_append, h.length, k.length]
  waits := by rw [List.countP_append, h.waits, k.waits]
  samples := by rw [List.countP_append, h.samples, k.samples]
  waitUnits e he := (List.mem_append.mp he).elim (h.waitUnits e) (k.waitUnits e)

theorem PhaseCounts.flatMap {g : Nat → List Event} {n w m : Nat} (h : ∀ i, PhaseCounts (g i) n w m) (is : List Nat) :
    PhaseCounts (is.flatMap g) (is.length * n) (is.length * w) (is.length * m) := by
  induction is with
  | nil => simpa using (⟨rfl, rfl, rfl, by simp⟩ : PhaseCounts [] 0 0 0)
  | cons i is ih =>
    simpa only [List.flatMap_cons, List.length_cons, Nat.add_one_mul, Nat.add_comm] using (h i).append ih

theorem phaseCounts_sendBitEvents (b : Level) : PhaseCounts (sendBitEvents b) 7 3 0 where
  waitUnits := by simp [sendBitEvents, Event.isWait]

theorem phaseCounts_readBitEvents (b : Level) : PhaseCounts (readBitEvents b) 6 2 1 where
  waitUnits := by simp [readBitEvents, Event.isWait]

theorem phaseCounts_releasedBitEvents (b : Level) : PhaseCounts (releasedBitEvents b) 7 2 1 where
  waitUnits := by simp [releasedBitEvents, Event.isWait]

theorem phaseCounts_sendNakEvents : PhaseCounts sendNakEvents 6 3 0 where
  waitUnits := by simp [sendNakEvents, Event.isWait]

/-- Eight bits and the release of SDA (R120). -/
theorem phaseCounts_sendByteEvents (v : Byte) : PhaseCounts (sendByteEvents v) 57 24 0 :=
  (PhaseCounts.flatMap (fun _ => phaseCounts_sendBitEvents _) [7, 6, 5, 4, 3, 2, 1, 0]).append
    (fs := [.release .sda]) (n' := 1) (w' := 0) (m' := 0) { waitUnits := by simp [Event.isWait] }

/-- A bit with the release of SDA and seven without (R124). -/
theorem phaseCounts_readByteEvents (f : Nat → Level) (k : Nat) : PhaseCounts (readByteEvents f k) 49 16 8 :=
  (phaseCounts_releasedBitEvents _).append (.flatMap (fun _ => phaseCounts_readBitEvents _) [1, 2, 3, 4, 5, 6, 7])

/-- The counts of a procedure's events are those of the trace it adds. -/
theorem BusRun.exists_counts {es : List Event} {s t : State} {n w m : Nat} (h : BusRun es s t) (k : PhaseCounts es n w m) :
    ∃ es, t.trace = s.trace ++ es ∧ es.length = n ∧ es.countP Event.isWait = w ∧ es.countP Event.isSample = m ∧
      ∀ e ∈ es, e.isWait = true → e = .wait Config.tPh :=
  ⟨es, h.trace, k.length, k.waits, k.samples, k.waitUnits⟩

/-- Settles O25: the counts of one bit, times the bits. -/
theorem eventCountsPerProcedure : Obligations.EventCountsPerProcedure := by
  intro v s acts n w m h
  simp only [List.mem_cons, List.not_mem_nil, or_false, Prod.mk.injEq] at h
  obtain ⟨rfl, rfl, rfl, rfl⟩ | ⟨rfl, rfl, rfl, rfl⟩ | ⟨rfl, rfl, rfl, rfl⟩ | ⟨rfl, rfl, rfl, rfl⟩ |
    ⟨rfl, rfl, rfl, rfl⟩ := h
  · exact (sendByte_busRun v s).exists_counts (phaseCounts_sendByteEvents v)
  · exact (readByte_busRun s).exists_counts (phaseCounts_readByteEvents _ _)
  · exact (checkAck_busRun s).exists_counts (phaseCounts_releasedBitEvents _)
  · exact (sendAck_busRun s).exists_counts (phaseCounts_sendBitEvents false)
  · exact (sendNak_busRun s).exists_counts phaseCounts_sendNakEvents

/-! ## Samples -/

/-- From whatever drive states the events begin in, each Sample is made with SDA released and SCL high (R147). -/
def SamplesReleased (es : List Event) : Prop := ∀ p, samplesReleased p es = true

theorem SamplesReleased.append {es fs : List Event} (h : SamplesReleased es) (k : SamplesReleased fs) :
    SamplesReleased (es ++ fs) := by
  intro p
  rw [samplesReleased_append, h, k]; rfl

theorem SamplesReleased.flatMap {g : Nat → List Event} (h : ∀ i, SamplesReleased (g i)) (is : List Nat) :
    SamplesReleased (is.flatMap g) := by
  induction is with
  | nil => exact fun _ => rfl
  | cons i is ih => exact (h i).append ih

theorem samplesReleased_sendBitEvents (b : Level) : SamplesReleased (sendBitEvents b) := fun _ => rfl

theorem samplesReleased_sendByteEvents (v : Byte) : SamplesReleased (sendByteEvents v) :=
  (SamplesReleased.flatMap (fun _ => samplesReleased_sendBitEvents _) _).append fun _ => rfl

/-- The bit releases SDA itself before its Sample (R124, R128). -/
theorem samplesReleased_releasedBitEvents (b : Level) : SamplesReleased (releasedBitEvents b) := fun _ => rfl

/-- A bit read without the release needs SDA released before it, and leaves it so (R124). -/
theorem samplesReleased_readBits (f : Nat → Level) (js : List Nat) :
    samplesReleased (.rel, .d0) (js.flatMap fun j => readBitEvents (f j)) = true := by
  induction js with
  | nil => rfl
  | cons j js ih =>
    rw [List.flatMap_cons, samplesReleased_append]
    exact ih

/-- Bit 7 releases SDA for all eight bits (R124). -/
theorem samplesReleased_readByteEvents (f : Nat → Level) (k : Nat) : SamplesReleased (readByteEvents f k) := by
  intro p
  rw [readByteEvents, samplesReleased_append, samplesReleased_releasedBitEvents]
  exact samplesReleased_readBits (fun j => f (k + j)) _

theorem samplesReleased_sendNakEvents : SamplesReleased sendNakEvents := fun _ => rfl

theorem samplesReleased_busStartEvents : SamplesReleased busStartEvents := fun _ => rfl

theorem samplesReleased_busStopEvents : SamplesReleased busStopEvents := fun _ => rfl

theorem samplesReleased_attemptEvents (c : Byte) (f : Nat → Level) (j : Nat) : SamplesReleased (attemptEvents c f j) := by
  refine (((samplesReleased_busStartEvents.append (samplesReleased_sendByteEvents c)).append
    (samplesReleased_releasedBitEvents _)).append ?_).append samplesReleased_busStopEvents
  split
  · exact fun _ => rfl
  · exact (((samplesReleased_readByteEvents f _).append (samplesReleased_sendBitEvents false)).append
      (samplesReleased_readByteEvents f _)).append samplesReleased_sendNakEvents

/-- A READ_A_BYTE's trace after its accepting edge: the events of its attempts and its Respond (R155). -/
theorem readRegister_trace (s : State) :
    (readRegister s).trace =
      s.trace ++ (transactionEvents s.arg s.sampleAt ++ [.respond (transactionResult s.arg s.sampleAt) false]) := by
  obtain ⟨m, hm⟩ : ∃ m, attemptCount s.arg s.sampleAt = m + 1 :=
    ⟨_, (Nat.sub_add_cancel (attemptCount_range s.arg s.sampleAt).1).symm⟩
  rw [readRegister_spec, transactionEvents, hm]
  exact trace_of_rtrace (by simp [afterAttempts, enterEngine])

/-- A body that is a bus run and a Respond takes its Samples in the run. -/
theorem SamplesReleased.of_busRun {es : List Event} {s u : State} {d : Byte} {e : Bool} (hes : SamplesReleased es)
    (hu : BusRun es s u) : ∃ es, (u.respond d e).trace = s.trace ++ es ∧ SamplesReleased es := by
  refine ⟨es ++ [.respond d e], ?_, hes.append fun _ => rfl⟩
  rw [trace_of_rtrace_cons (u.respond_rtrace d e), hu.trace, List.append_assoc]

/-- Every instruction's events from its accepting edge to its Respond keep to the rule (R147). -/
theorem bodyOf_samplesReleased (i : Instr) (s : State) :
    ∃ es, (bodyOf i s).trace = s.trace ++ es ∧ SamplesReleased es := by
  cases i with
  | delay n =>
    have hwait : SamplesReleased [.wait s.arg.toNat] := fun _ => rfl
    exact hwait.of_busRun (runActs_busRun_of_rtrace rfl (congrArg State.rtrace (runActs_busDelay s.arg.toNat s)))
  | busStart a => exact samplesReleased_busStartEvents.of_busRun (busStart_busRun s)
  | busStop a => exact samplesReleased_busStopEvents.of_busRun (busStop_busRun s)
  | sendByte v => exact (samplesReleased_sendByteEvents _).of_busRun (sendByte_busRun s.arg s)
  | readByte a => exact (samplesReleased_readByteEvents _ _).of_busRun (readByte_busRun s)
  | checkAck a => exact (samplesReleased_releasedBitEvents _).of_busRun (checkAck_busRun s)
  | sendAck a => exact (samplesReleased_sendBitEvents false).of_busRun (sendAck_busRun s)
  | sendNak a => exact samplesReleased_sendNakEvents.of_busRun (sendNak_busRun s)
  | reserved0 a | reservedA a | reservedB a | reservedC a | reservedD a | reservedE a | reservedF a =>
    have hnone : SamplesReleased [] := fun _ => rfl
    exact hnone.of_busRun (.refl s)
  | _ =>
    exact ⟨_, readRegister_trace s,
      (SamplesReleased.flatMap (samplesReleased_attemptEvents _ _) _).append fun _ => rfl⟩

/-- Settles O26: a request that is not accepted adds nothing, an accepted one its Accept and the events of its body. -/
theorem samplesOnlyReleasedLine : Obligations.SamplesOnlyReleasedLine := by
  intro i s t h
  obtain ⟨-, rfl⟩ | ⟨-, rfl⟩ := exec_next_cases i s t h
  · exact ⟨[], (List.append_nil _).symm, rfl⟩
  · obtain ⟨es, htrace, hes⟩ := bodyOf_samplesReleased i (s.start (opCodeOf i) (argByteOf s.codes i))
    refine ⟨.accept (opCodeOf i) (argByteOf s.codes i) :: es, ?_, hes s.pads⟩
    rw [htrace, trace_of_rtrace_cons (s.start_rtrace _ _), List.append_assoc]
    rfl

end Sys2Proof.Machine
end

section
/-! PROOFS. The step invariant on VAL and OK (42_command_engine.md R150 to R154). -/

namespace Sys2Proof.Machine

/-! ## Where VAL is written within a list -/

/-- Whether an action writes VAL: the one that latches the value byte does (R152). -/
def Act.latchesVal : Act → Bool
  | .lowAfter ws => ws.contains .latchVal
  | .drive _ _ => false
  | .driveBit _ => false
  | .release _ => false
  | .wait _ => false
  | .sampleBit => false
  | .sampleAck => false

theorem runWrites_val (ws : List RegWrite) (s : State) (h : ws.contains .latchVal = false) :
    (runWrites ws s).val = s.val := by
  induction ws generalizing s with
  | nil => rfl
  | cons w ws ih =>
    rw [List.contains_cons, Bool.or_eq_false_iff] at h
    obtain ⟨hw, hws⟩ := h
    rw [runWrites, ih _ hws]
    cases w with
    | latchVal => cases hw
    | _ => rfl

/-- Every other action leaves VAL alone. -/
theorem Act.run_val (a : Act) (s : State) (h : a.latchesVal = false) : (a.run s).val = s.val := by
  cases a with
  | drive l b => cases l <;> rfl
  | release l => cases l <;> rfl
  | lowAfter ws => exact runWrites_val ws s h
  | _ => rfl

/-- VAL is latched in READ_VALUE alone (R152, R156). -/
theorem phaseActs_latchesVal (ph : Phase) (s : State) (h : ph ≠ .readValue) :
    ∀ a ∈ phaseActs ph s, a.latchesVal = false := by
  have hall : (phaseActs ph s).all (fun a => !a.latchesVal) = true := by
    cases ph with
    | op => unfold phaseActs opActs; cases decodeOp s.op <;> rfl
    | readValue => exact absurd rfl h
    | _ => rfl
  simpa using hall

/-! ## The invariant along the edges -/

/-- The invariant looks at the phase, VAL and OK alone, and in READ_VALUE not at VAL. -/
theorem failedValue_of_registers {s t : State} {ph : Phase} {k k' : Nat} (hs : FailedValue s) (hp : s.pos = .run ph k)
    (hp' : t.pos = .run ph k') (hok : t.ok = s.ok) (hval : ph ≠ .readValue → t.val = s.val) : FailedValue t := by
  rw [FailedValue, hp] at hs
  rw [FailedValue, hp', hok]
  by_cases hread : ph = .readValue
  · rw [hread] at hs ⊢; exact hs
  · rw [hval hread]; cases ph <;> exact hs

theorem failedValue_idle {s : State} (h : s.pos = .idle) : FailedValue s := by
  rw [FailedValue, h]; trivial

theorem failedValue_hostMove (s : State) : FailedValue s.hostMove ↔ FailedValue s := by simp [FailedValue]

/-- The checksum check leads to ACCEPT with OK at 1, or to RETRY with VAL marked invalid (R153). -/
theorem failedValue_finishValidate (s : State) : FailedValue (finishPhase .validate s) := by
  rw [finishPhase_validate, validate_ok]
  cases h : checksumMatches s.val s.cmd s.chk with
  | true => exact h
  | false => exact ⟨by simp [h], h⟩

/-- The end of a phase leads to a phase whose VAL and OK are the ones it leaves (R150 to R154, R156). -/
theorem failedValue_finishPhase {s : State} {ph : Phase} {k : Nat} (hs : FailedValue s) (hp : s.pos = .run ph k) :
    FailedValue (finishPhase ph s) := by
  rw [FailedValue, hp] at hs
  cases ph with
  | op =>
    rw [finishPhase_op, finishOp]
    cases decodeOp s.op with
    | readAByte => exact ⟨rfl, rfl⟩
    | _ => trivial
  | attempt => exact hs
  | sendCmd => exact hs
  | checkAck =>
    rw [finishPhase_checkAck]
    obtain ⟨hval, hok⟩ := hs
    split
    · exact ⟨hval, hok⟩
    · exact hok
  | readValue => exact hs
  | ackFailed => exact ⟨hs.1, rfl⟩
  | validate => exact failedValue_finishValidate s
  | accept => trivial
  | retry =>
    rw [finishPhase_retry]
    split
    · exact hs
    · trivial

/-- An edge of the running request stays in its phase, with OK kept and VAL written in READ_VALUE alone, or ends it. -/
theorem failedValue_runEdge {s : State} {ph : Phase} {k : Nat} (hs : FailedValue s) (hp : s.pos = .run ph k) :
    FailedValue (runEdge ph k s) := by
  match hd : s.dcnt with
  | d + 2 =>
    rw [runEdge_count ph k d s hd]
    exact failedValue_of_registers hs hp hp rfl fun _ => rfl
  | 1 =>
    rw [runEdge_last ph k s hd]
    exact failedValue_of_registers hs hp rfl rfl fun _ => rfl
  | 0 =>
    cases ha : (phaseActs ph s)[k]? with
    | none => rw [runEdge_finish ph k s hd ha]; exact failedValue_finishPhase hs hp
    | some a =>
      rw [runEdge_step ph k a s hd ha]
      by_cases hw : ∃ n, a = .wait n
      · obtain ⟨n, rfl⟩ := hw
        rw [runStep, startWait_eq_waitLeft]
        exact failedValue_of_registers hs hp rfl rfl fun _ => rfl
      · obtain ⟨-, -, -, -, -, -, -, hok, -⟩ := a.run_keeps s
        rw [runStep_act ph k a s fun n h => hw ⟨n, h⟩]
        exact failedValue_of_registers hs hp rfl hok fun hph =>
          a.run_val s (phaseActs_latchesVal ph s hph a (List.mem_of_getElem? ha))

/-- Settles O46: after a reset, an idle edge, an accepting edge or a whole request the position is no engine state's, and an
edge of the running request goes on in its phase or to the one R156 names. -/
theorem failedValueIsKept : Obligations.FailedValueIsKept := by
  intro s t hs h
  rcases step_next_cases s t h with ⟨hr, hexec⟩ | ⟨-, htick⟩
  · obtain ⟨-, rfl⟩ := step_runsRequest_next s t hr hexec
    exact failedValue_idle (bodyOf_pos _ _)
  · obtain ⟨-, rfl⟩ | ⟨-, -, -, -, rfl⟩ | ⟨-, -, hp, -, rfl⟩ | ⟨ph, k, -, -, hp, rfl⟩ := tick_next_cases s t htick <;>
      rw [failedValue_hostMove]
    · exact failedValue_idle rfl
    · trivial
    · exact failedValue_idle hp
    · exact failedValue_runEdge hs hp

end Sys2Proof.Machine
end

section
/-! PROOFS. READ_A_BYTE as its host sees it: the number of attempts, the result, and the size of an attempt
(42_command_engine.md R155 to R159, 70_reset_and_hazards.md R240). -/

namespace Sys2Proof.Machine

/-- Settles O28: the closed form of the transaction says all of it. -/
theorem readAByteRunsTransaction : Obligations.ReadAByteRunsTransaction :=
  exec_readAByte_readsRegister

/-- Whatever next state an accepted READ_A_BYTE answers is that of its transaction. -/
theorem readsRegister_of_exec {c : Byte} {s t : State} (hacc : Accepted (.readAByte c) s)
    (h : exec (.readAByte c) s = .next t) : ReadsRegister c s t := by
  obtain ⟨u, hu, hreads⟩ := exec_readAByte_readsRegister c s hacc
  obtain rfl : u = t := Host.Outcome.next.inj (hu.symm.trans h)
  exact hreads

/-! ## The number of attempts -/

/-- The last attempt, with index `n`, is the first that passes, or the third; none before it passes (R154). -/
theorem attemptCount_spec (c : Byte) (f : Nat → Level) :
    ∃ n ≤ 2, attemptCount c f = n + 1 ∧ (∀ j < n, attemptPasses c f j = false) ∧
      (attemptPasses c f n = true ∨ n = 2) := by
  unfold attemptCount
  cases p0 : attemptPasses c f 0 with
  | true => exact ⟨0, by omega, rfl, by simp, .inl p0⟩
  | false =>
    cases p1 : attemptPasses c f 1 with
    | true => exact ⟨1, by omega, rfl, by simpa using p0, .inl p1⟩
    | false => exact ⟨2, by omega, rfl, fun j hj => by interval_cases j <;> assumption, .inr rfl⟩

/-- If the attempt with index `m` is the first that passes, it is the last one, or the third is (R157). -/
theorem attemptCount_of_first_pass {c : Byte} {f : Nat → Level} {m : Nat} (hm : attemptPasses c f m = true)
    (hfirst : ∀ j < m, attemptPasses c f j = false) : attemptCount c f = min (m + 1) 3 := by
  obtain ⟨n, hn, hcount, hfail, hlast⟩ := attemptCount_spec c f
  have hle : n ≤ m := by
    by_contra hlt
    rw [hfail m (by omega)] at hm; cases hm
  have hge : n = 2 ∨ m ≤ n := by
    refine hlast.symm.imp_right fun hpass => ?_
    by_contra hlt
    rw [hfirst n (by omega)] at hpass; cases hpass
  omega

/-- If none of the first three passes there are three (R157). -/
theorem attemptCount_of_no_pass {c : Byte} {f : Nat → Level} (h : ∀ j < 3, attemptPasses c f j = false) :
    attemptCount c f = 3 := by
  simp [attemptCount, h 0, h 1]

/-- While none has passed up to the one with index `j`, the third not yet made, there is one more (R154). -/
theorem attemptCount_after_failures {c : Byte} {f : Nat → Level} {j : Nat} (hj : j < 2)
    (h : ∀ j' ≤ j, attemptPasses c f j' = false) : j + 2 ≤ attemptCount c f := by
  obtain ⟨n, -, hcount, -, hlast⟩ := attemptCount_spec c f
  have hlt : j < n := by
    by_contra hle
    rcases hlast with hpass | rfl
    · rw [h n (by omega)] at hpass; cases hpass
    · omega
  omega

/-- An attempt that is not acknowledged does not pass (R151). -/
theorem attemptPasses_of_not_acked {c : Byte} {f : Nat → Level} {j : Nat} (h : attemptAcked f j = false) :
    attemptPasses c f j = false := by
  simp [attemptPasses, h]

/-- Settles O31: ATTEMPT is the count of the transaction, which ends at the first attempt that passes or at the third. -/
theorem attemptsAreMinOfFirstPass : Obligations.AttemptsAreMinOfFirstPass := by
  intro c s t hacc h
  obtain ⟨-, -, -, hcount, -⟩ := readsRegister_of_exec hacc h
  rw [hcount]
  obtain ⟨hmin, hmax⟩ := attemptCount_range c s.sampleAt
  refine ⟨fun k hk hpass hfirst => ?_, attemptCount_of_no_pass, hmin, hmax, fun hnone => ?_, fun j hj _ hfail => ?_⟩
  · rw [attemptCount_of_first_pass hpass hfirst, Nat.sub_add_cancel hk]
  · exact attemptCount_of_no_pass fun j hj => attemptPasses_of_not_acked (hnone j hj)
  · exact attemptCount_after_failures hj hfail

/-! ## The result -/

/-- The result is the value byte of the first attempt that passes, one of the three (R158). -/
theorem transactionResult_of_first_pass {c : Byte} {f : Nat → Level} {j : Nat} (hj : j < 3)
    (hpass : attemptPasses c f j = true) (hfirst : ∀ j' < j, attemptPasses c f j' = false) :
    transactionResult c f = attemptValue f j := by
  have hcount : attemptCount c f = j + 1 := by
    rw [attemptCount_of_first_pass hpass hfirst]; omega
  rw [transactionResult_eq c f j hcount, if_pos hpass]

/-- The result is the sentinel if none of the three passes (R158). -/
theorem transactionResult_of_no_pass {c : Byte} {f : Nat → Level} (h : ∀ j < 3, attemptPasses c f j = false) :
    transactionResult c f = 0xFF#8 := by
  rw [transactionResult_eq c f 2 (attemptCount_of_no_pass h), h 2 (by omega)]
  rfl

/-- An attempt passes only with value plus command equal to its checksum byte (R153). -/
theorem checksum_of_attemptPasses {c : Byte} {f : Nat → Level} {j : Nat} (h : attemptPasses c f j = true) :
    attemptValue f j + c = attemptChecksum f j := by
  rw [attemptPasses, Bool.and_eq_true] at h
  exact eq_of_beq h.2

/-- Settles O32: the result is the transaction's, and the attempt it comes from passed its checksum. -/
theorem resultMatchesChecksum : Obligations.ResultMatchesChecksum := by
  intro c s t hacc h
  obtain ⟨-, hdata, -⟩ := readsRegister_of_exec hacc h
  rw [hdata]
  refine ⟨fun j hj hpass hfirst => ?_, transactionResult_of_no_pass⟩
  rw [transactionResult_of_first_pass hj hpass hfirst]
  exact ⟨rfl, checksum_of_attemptPasses hpass⟩

/-! ## The size of an attempt -/

/-- An attempt has 187 events if it is acknowledged, else 76 (R159). -/
theorem length_attemptEvents (c : Byte) (f : Nat → Level) (j : Nat) :
    (attemptEvents c f j).length = if f (attemptStart f j) then 76 else 187 := by
  cases hf : f (attemptStart f j) <;>
    simp [attemptEvents, hf, (phaseCounts_sendByteEvents c).length, (phaseCounts_readByteEvents f _).length,
      (phaseCounts_releasedBitEvents _).length, busStartEvents, busStopEvents, sendAckEvents, sendBitEvents,
      sendNakEvents]

/-- An attempt makes the samples it is said to take (R159). -/
theorem countP_isSample_attemptEvents (c : Byte) (f : Nat → Level) (j : Nat) :
    (attemptEvents c f j).countP Event.isSample = if f (attemptStart f j) then 1 else 17 := by
  cases hf : f (attemptStart f j) <;>
    simp [attemptEvents, hf, (phaseCounts_sendByteEvents c).samples, (phaseCounts_readByteEvents f _).samples,
      (phaseCounts_releasedBitEvents _).samples, (phaseCounts_sendBitEvents false).samples,
      phaseCounts_sendNakEvents.samples, sendAckEvents, busStartEvents, busStopEvents, Event.isSample]

/-- The wait content of an attempt: start, stop, and the bit phases of its bytes (R240). -/
theorem waitUnits_attemptEvents (c : Byte) (f : Nat → Level) (j : Nat) :
    waitUnits (attemptEvents c f j) =
      Config.tSuSta + Config.tHdSta + (if f (attemptStart f j) then 26 else 64) * Config.tPh + 3 * Config.tStop := by
  cases hf : f (attemptStart f j) <;>
    simp [attemptEvents, hf, waitUnits_append, waitUnits_sendByteEvents, waitUnits_releasedBitEvents,
      waitUnits_readByteEvents, sendAckEvents, waitUnits_sendBitEvents, busStartEvents, busStopEvents, sendNakEvents,
      waitUnits] <;>
    omega

/-- One attempt adds the events of a transaction's first attempt to the trace, from any state (R151, R152). -/
theorem attempt_trace (s : State) : (attempt s).trace = s.trace ++ attemptEvents s.cmd s.sampleAt 0 := by
  refine trace_of_rtrace ?_
  rw [attempt_indexed s s.sampleAt 0 (by simp [attemptStart])]

/-- Settles O34: the attempt is the first of a transaction that begins in its state. -/
theorem attemptSizeAndWaits : Obligations.AttemptSizeAndWaits := fun s =>
  ⟨_, attempt_trace s, length_attemptEvents s.cmd s.sampleAt 0, countP_isSample_attemptEvents s.cmd s.sampleAt 0,
    waitUnits_attemptEvents s.cmd s.sampleAt 0⟩

/-! ## A bus that never acknowledges -/

/-- Each attempt that is not acknowledged takes one sample (R159). -/
theorem attemptStart_of_no_ack {f : Nat → Level} {n : Nat} (h : ∀ j < n, f j = true) : attemptStart f n = n := by
  induction n with
  | zero => rfl
  | succ n ih =>
    rw [attemptStart, ih fun j hj => h j (by omega), samplesTaken, if_pos (h n (by omega))]

/-- Settles O33: three samples of 1 are three attempts without an acknowledge, each of 76 events. -/
theorem neverAcknowledgedGivesSentinel : Obligations.NeverAcknowledgedGivesSentinel := by
  intro c s hacc h
  have hstart : ∀ n ≤ 3, attemptStart s.sampleAt n = n := fun n hn => attemptStart_of_no_ack fun j hj => h j (by omega)
  have hsample : ∀ j < 3, s.sampleAt (attemptStart s.sampleAt j) = true := fun j hj => by
    rw [hstart j hj.le, h j hj]
  have hfail : ∀ j < 3, attemptPasses c s.sampleAt j = false := fun j hj =>
    attemptPasses_of_not_acked (by rw [attemptAcked, hsample j hj]; rfl)
  have hlen : ∀ j < 3, (attemptEvents c s.sampleAt j).length = 76 := fun j hj => by
    rw [length_attemptEvents, if_pos (hsample j hj)]
  obtain ⟨t, hexec, -, hdata, herr, hcount, hix, -, -, -, -, htraced⟩ := exec_readAByte_readsRegister c s hacc
  rw [attemptCount_of_no_pass hfail] at hcount hix
  refine ⟨_, t, hexec, by rw [hdata, transactionResult_of_no_pass hfail], herr, BitVec.eq_of_toNat_eq hcount,
    by rw [hix, hstart 3 (Nat.le_refl 3)], htraced, ?_⟩
  rw [transactionEvents, attemptCount_of_no_pass hfail]
  simp [List.range_succ, hlen]

end Sys2Proof.Machine
end

section
/-! PROOFS. A running request ends (42_command_engine.md R161, 60_exceptions.md R201): each edge leaves fewer phases before the
Respond, or fewer edges in its phase. -/

namespace Sys2Proof.Machine

/-! ## The edges left in a phase -/

/-- The edges an entry of a list takes: its own, and the cycles of a Wait (R32, R35; log 7). -/
def Act.edges : Act → Nat
  | .wait n => n * Config.delayFactor + 1
  | .drive _ _ => 1
  | .driveBit _ => 1
  | .release _ => 1
  | .sampleBit => 1
  | .sampleAck => 1
  | .lowAfter _ => 1

theorem Act.edges_pos (a : Act) : 0 < a.edges := by cases a <;> exact Nat.succ_pos _

/-- The edges the entries of a list take from step `k` on. -/
def edgesFrom (as : List Act) (k : Nat) : Nat := ((as.drop k).map Act.edges).sum

theorem edgesFrom_of_getElem? {as : List Act} {k : Nat} {a : Act} (h : as[k]? = some a) :
    edgesFrom as k = a.edges + edgesFrom as (k + 1) := by
  obtain ⟨hk, rfl⟩ := List.getElem?_eq_some_iff.mp h
  rw [edgesFrom, List.drop_eq_getElem_cons hk, List.map_cons, List.sum_cons, edgesFrom]

/-- The edges left in a list at step `k` with DCNT at `d`: those of the entries from there on, or, inside a Wait, its cycles
left and those of the entries after it. -/
def edgesLeft (as : List Act) (k : Nat) : Nat → Nat
  | 0 => edgesFrom as k
  | d + 1 => d + 1 + edgesFrom as (k + 1)

/-! ## The phases left in a request -/

/-- A bound on the phases to come after one of them: six for each attempt not yet counted, fewer in those of an attempt
(R156, R157). -/
def phasesLeft (ph : Phase) (attempt : BitVec 2) : Nat :=
  match ph with
  | .op => 6 * Config.nAttempts + 1
  | .attempt => 6 * (Config.nAttempts - attempt.toNat)
  | .sendCmd => 6 * (Config.nAttempts - attempt.toNat) + 5
  | .checkAck => 6 * (Config.nAttempts - attempt.toNat) + 4
  | .readValue => 6 * (Config.nAttempts - attempt.toNat) + 3
  | .ackFailed => 6 * (Config.nAttempts - attempt.toNat) + 3
  | .validate => 6 * (Config.nAttempts - attempt.toNat) + 2
  | .retry => 6 * (Config.nAttempts - attempt.toNat) + 1
  | .accept => 6 * (Config.nAttempts - attempt.toNat)

/-- What is left of a running request: its phases, then the edges in the phase it is in. -/
def State.remaining (s : State) : Nat × Nat :=
  match s.pos with
  | .idle => (0, 0)
  | .run ph k => (phasesLeft ph s.attempt, edgesLeft (phaseActs ph s) k s.dcnt)

theorem State.remaining_of_pos {s : State} {ph : Phase} {k : Nat} (h : s.pos = .run ph k) :
    s.remaining = (phasesLeft ph s.attempt, edgesLeft (phaseActs ph s) k s.dcnt) := by
  rw [State.remaining, h]

theorem State.remaining_hostMove (s : State) : s.hostMove.remaining = s.remaining := by
  have hlist (ph : Phase) : phaseActs ph s.hostMove = phaseActs ph s :=
    phaseActs_congr ph s _ s.hostMove_op s.hostMove_arg s.hostMove_cmd
  simp only [State.remaining, State.hostMove_pos, State.hostMove_attempt, State.hostMove_dcnt, hlist]

/-! ## One edge -/

/-- From `s` to `t` the request ends with its Respond, or it still runs with less left: fewer phases, or as many and fewer
edges in the phase. -/
def Progresses (s t : State) : Prop :=
  (∃ d e, t = s.respond d e) ∨ (t.busy = true ∧ Prod.Lex (· < ·) (· < ·) t.remaining s.remaining)

/-- In the same phase, its list the same, fewer edges are left. -/
theorem progresses_of_edges {s t : State} {ph : Phase} {k k' : Nat} (hp : s.pos = .run ph k) (hp' : t.pos = .run ph k')
    (hregs : t.op = s.op ∧ t.arg = s.arg ∧ t.cmd = s.cmd ∧ t.attempt = s.attempt)
    (h : edgesLeft (phaseActs ph s) k' t.dcnt < edgesLeft (phaseActs ph s) k s.dcnt) : Progresses s t := by
  obtain ⟨hop, harg, hcmd, hatt⟩ := hregs
  refine .inr ⟨by rw [State.busy, hp'], ?_⟩
  rw [State.remaining_of_pos hp, State.remaining_of_pos hp', hatt, phaseActs_congr ph s t hop harg hcmd]
  exact Prod.Lex.right _ h

/-- A phase with fewer phases to come is entered. -/
theorem progresses_atStep {s : State} {ph : Phase} {k : Nat} (hp : s.pos = .run ph k) (ph' : Phase) (u : State)
    (h : phasesLeft ph' u.attempt < phasesLeft ph s.attempt) : Progresses s (u.atStep ph' 0) := by
  refine .inr ⟨rfl, ?_⟩
  rw [State.remaining_of_pos hp, State.remaining_of_pos (u.atStep_pos ph' 0)]
  exact Prod.Lex.left _ _ h

/-- The end of a phase leads to one with fewer phases to come, or to the Respond (R156). -/
theorem progresses_finishPhase {s : State} {ph : Phase} {k : Nat} (hp : s.pos = .run ph k) (he : EngineLegal ph s) :
    Progresses s (finishPhase ph s) := by
  have hrespond : ∀ d e, Progresses s (s.respond d e) := fun d e => .inl ⟨d, e, rfl⟩
  have hnext := progresses_atStep hp
  cases ph with
  | op =>
    rw [finishPhase_op, finishOp]
    cases decodeOp s.op with
    | readAByte => exact hnext .attempt (enterEngine s) (by simp [phasesLeft, enterEngine])
    | _ => exact hrespond _ _
  | attempt =>
    obtain ⟨-, hlt, -⟩ := he
    have hlt : s.attempt.toNat < 3 := hlt rfl
    have hcount : (countAttempt s).attempt.toNat = s.attempt.toNat + 1 := by
      rw [countAttempt_attempt, BitVec.toNat_add_of_lt (by simp; omega)]; rfl
    exact hnext .sendCmd (countAttempt s) (by simp only [phasesLeft, hcount, Config.nAttempts]; omega)
  | sendCmd => exact hnext .checkAck s (Nat.lt_succ_self _)
  | checkAck =>
    rw [finishPhase_checkAck]
    split
    · exact hnext .ackFailed s (Nat.lt_succ_self _)
    · exact hnext .readValue s (Nat.lt_succ_self _)
  | readValue => exact hnext .validate s (Nat.lt_succ_self _)
  | ackFailed => exact hnext .retry (clearOk s) (by simp [phasesLeft, clearOk])
  | validate =>
    rw [finishPhase_validate]
    split
    · exact hnext .accept (validate s) (by simp [phasesLeft])
    · exact hnext .retry (validate s) (by simp [phasesLeft])
  | accept => exact hrespond _ _
  | retry =>
    rw [finishPhase_retry]
    split
    · exact hnext .attempt s (Nat.lt_succ_self _)
    · exact hrespond _ _

/-- An entry's edge leaves of the entry the cycles of a Wait, and else nothing (R32, R35). -/
theorem progresses_runStep {s : State} {ph : Phase} {k : Nat} {a : Act} (hp : s.pos = .run ph k) (hd : s.dcnt = 0)
    (ha : (phaseActs ph s)[k]? = some a) : Progresses s (runStep ph k a s) := by
  have hnow : edgesLeft (phaseActs ph s) k s.dcnt = a.edges + edgesFrom (phaseActs ph s) (k + 1) := by
    rw [hd, edgesLeft, edgesFrom_of_getElem? ha]
  by_cases hw : ∃ n, a = .wait n
  · obtain ⟨n, rfl⟩ := hw
    rw [runStep, startWait_eq_waitLeft]
    refine progresses_of_edges hp rfl ⟨rfl, rfl, rfl, rfl⟩ ?_
    rw [hnow, Act.edges]
    show edgesLeft _ _ (n * Config.delayFactor) < _
    cases n * Config.delayFactor with
    | zero => rw [if_pos rfl, edgesLeft]; omega
    | succ d => rw [if_neg (Nat.succ_ne_zero d), edgesLeft]; omega
  · obtain ⟨hop, harg, hcmd, -, -, -, hatt, -⟩ := a.run_keeps s
    rw [runStep_act ph k a s fun n h => hw ⟨n, h⟩]
    refine progresses_of_edges hp rfl ⟨hop, harg, hcmd, hatt⟩ ?_
    rw [hnow, State.atStep_dcnt, a.run_dcnt s hd, edgesLeft]
    exact Nat.lt_add_of_pos_left a.edges_pos

/-- Every edge of a running request brings it nearer to its Respond (R161). -/
theorem progresses_runEdge {s : State} {ph : Phase} {k : Nat} (hp : s.pos = .run ph k) (he : EngineLegal ph s) :
    Progresses s (runEdge ph k s) := by
  match hd : s.dcnt with
  | d + 2 =>
    rw [runEdge_count ph k d s hd]
    refine progresses_of_edges hp hp ⟨rfl, rfl, rfl, rfl⟩ ?_
    rw [hd, edgesLeft, edgesLeft]
    omega
  | 1 =>
    rw [runEdge_last ph k s hd]
    refine progresses_of_edges hp rfl ⟨rfl, rfl, rfl, rfl⟩ ?_
    rw [hd, State.atStep_dcnt, edgesLeft, edgesLeft]
    omega
  | 0 =>
    cases ha : (phaseActs ph s)[k]? with
    | none => rw [runEdge_finish ph k s hd ha]; exact progresses_finishPhase hp he
    | some a => rw [runEdge_step ph k a s hd ha]; exact progresses_runStep hp hd ha

/-! ## To the Respond -/

/-- Nothing outside the core stands in a request's way: the position is legal, no reset comes now or later, and the slave lets
SDA go (R23, R161, R231). -/
structure Undisturbed (s : State) : Prop where
  legal : LegalPosition s
  rst : s.rst = false
  schedule : ∀ c ∈ s.schedule, c.rst = false
  notHeld : s.sdaHeld = false

/-- An edge of the running request, with the host's move, leaves it undisturbed. -/
theorem Undisturbed.runEdge {s : State} (h : Undisturbed s) {ph : Phase} {k : Nat} (hp : s.pos = .run ph k) :
    Undisturbed (runEdge ph k s).hostMove := by
  obtain ⟨hhost, hset⟩ := runEdge_keeps ph k s
  have hsched : (Machine.runEdge ph k s).schedule = s.schedule := congrArg (fun p => p.2.2) hhost
  refine ⟨legalPosition_hostMove _ (legalPosition_runEdge ph k s hp h.legal), ?_, ?_, ?_⟩
  · refine ((Machine.runEdge ph k s).hostMove_rst_low 0 fun c hc => ?_).1
    exact h.schedule c (hsched ▸ List.mem_of_mem_take hc)
  · rw [State.hostMove_schedule, hsched]
    exact fun c hc => h.schedule c (List.mem_of_mem_tail hc)
  · rw [State.hostMove_sdaHeld, sdaHeld_of_settings hset, h.notHeld]

/-- An undisturbed request reaches its Respond, since every edge leaves less of it (R161, R201). -/
theorem Undisturbed.reaches_respond (s : State) (h : Undisturbed s) (hb : s.busy = true) :
    ∃ t, Reaches s t ∧ t.busy = false ∧ t.rspValid = true := by
  obtain ⟨ph, k, hp⟩ := State.pos_of_busy hb
  have hedge : Reaches s (Machine.runEdge ph k s).hostMove :=
    Reaches.of_tick (tick_run s ph k h.rst (contends_of_not_held h.notHeld) hp)
  have hnext := h.runEdge hp
  obtain ⟨-, -, he⟩ := (legalPosition_run s ph k hp).mp h.legal
  rcases progresses_runEdge hp he with ⟨d, e, hrespond⟩ | ⟨hbusy, hless⟩
  · refine ⟨_, hedge, by rw [State.busy_hostMove, hrespond, State.busy_respond], ?_⟩
    rw [State.rspValid, hnext.rst, State.hostMove_rspPulse, hrespond]
    rfl
  · obtain ⟨t, hreach, ht⟩ := Undisturbed.reaches_respond _ hnext (by rw [State.busy_hostMove, hbusy])
    exact ⟨t, hedge.trans hreach, ht⟩
termination_by s.remaining
decreasing_by rw [State.remaining_hostMove]; exact hless

/-- Settles O41: the hypotheses make the request undisturbed, and then every edge leaves less of it. -/
theorem everyRequestEnds : Obligations.EveryRequestEnds := by
  intro s hlegal hb hr hsched hh
  obtain ⟨t, ⟨n, hn⟩, ht⟩ := Undisturbed.reaches_respond s ⟨hlegal, hr, hsched, hh⟩ hb
  exact ⟨n, t, hn, ht⟩

end Sys2Proof.Machine
end

section
/-! PROOFS. The host's accessors as runs of READ_A_BYTE requests (43_host_accessors.md R180, R182): what one `rab` answers,
leaves and shows, and how a status-checked read ends at its first checkpoint. -/

namespace Sys2Proof.Machine

/-! ## Accepts among a request's events -/

/-- A transaction's events are all of the bus, as those of its attempts are (R28, R155). -/
theorem onBus_transactionEvents (c : Byte) (f : Nat → Level) : ∀ e ∈ transactionEvents c f, e.onBus = true := by
  intro e he
  obtain ⟨j, -, hj⟩ := List.mem_flatMap.mp he
  exact onBus_attemptEvents c f j e hj

/-- A bus event is no Accept (R28). -/
theorem Event.isAccept_of_onBus {e : Event} (h : e.onBus = true) : e.isAccept = false := by
  cases e with
  | accept => cases h
  | _ => rfl

/-- A request adds exactly one Accept to the trace: its own (R28). -/
theorem countP_isAccept_request (op : BitVec 4) (arg : Byte) {es : List Event} (d : Byte) (err : Bool)
    (hes : ∀ e ∈ es, e.onBus = true) :
    ([Event.accept op arg] ++ es ++ [Event.respond d err]).countP Event.isAccept = 1 := by
  have hnone : es.countP Event.isAccept = 0 :=
    List.countP_eq_zero.mpr fun e he => by simp [Event.isAccept_of_onBus (hes e he)]
  rw [List.countP_append, List.countP_append, hnone]
  rfl

/-! ## One `rab` -/

/-- A procedure after one that completes runs with its answer, from the state it leaves. -/
theorem hostThen_of_some {α β : Type} {m : HostRun α} {a : α} {s t : State} (h : m s = some (a, t))
    (k : α → HostRun β) : hostThen m k s = k a t := by
  rw [hostThen, h]

/-- `rab(c)` completes with the result of the transaction READ_A_BYTE runs (R155, R180). -/
theorem rab_readsRegister (c : Byte) {s : State} (hr : s.reqReady = true) (hh : s.sdaHeld = false) :
    ∃ t, rab c s = some (t.rspData, t) ∧ ReadsRegister c (s.offer (requestWord 0x9#4 c)) t ∧
      t.settings = s.settings := by
  obtain ⟨t, hexec, hreads⟩ := exec_readAByte_readsRegister c (s.offer (requestWord 0x9#4 c))
    (accepted_of_not_held _ hr hh)
  have hdecode : decodeRequest (requestWord 0x9#4 c) = .readAByte c := decodeRequest_requestWord 0x9#4 c
  have ⟨⟨_, _, _, hvalid, _⟩, _⟩ := hreads
  refine ⟨t, ?_, hreads, (exec_keeps_settings _ _ t hexec :)⟩
  rw [rab, issue, hdecode, hexec]
  exact if_pos hvalid

/-- One named `rab` from a ready core: it answers its transaction's result, is one accepted request, and leaves the core ready,
at the sample after those its attempts took (R159, R180). -/
theorem rabNamed_one_request (command : CommandCodes → Byte) {s : State} (hr : s.reqReady = true)
    (hh : s.sdaHeld = false) :
    ∃ t new, rabNamed command s = some (transactionResult (command s.codes) s.sampleAt, t) ∧
      t.trace = s.trace ++ new ∧ new.countP Event.isAccept = 1 ∧ t.codes = s.codes ∧
      HostReady s.sampleAt (attemptStart s.sampleAt (attemptCount (command s.codes) s.sampleAt)) t := by
  obtain ⟨t, hrab, ⟨hcompletes, hdata, -, -, hix, hdraws, -, -, -, htraced⟩, hset⟩ :=
    rab_readsRegister (command s.codes) hr hh
  have hrst : s.rst = false := rst_of_accepted (accepted_of_not_held (.readAByte (command s.codes)) hr hh)
  have hheld : t.sdaHeld = s.sdaHeld := sdaHeld_of_settings hset
  refine ⟨t, [.accept 0x9#4 (command s.codes)] ++ transactionEvents (command s.codes) s.sampleAt ++
    [.respond t.rspData t.rspErr], ?_, ?_, ?_, codes_of_settings hset, ?_, hheld.trans hh, ?_⟩
  · exact hdata ▸ hrab
  · exact htraced.trans (by simp only [List.append_assoc]; rfl)
  · exact countP_isAccept_request _ _ _ _ (onBus_transactionEvents _ _)
  · exact reqReady_of_completes hcompletes hrst
  · exact sampleAt_shift s t _ hheld hdraws hix

/-! ## The first checkpoint -/

/-- A first status other than 0x00 ends the read with the sentinel, in the state the status read leaves (R182). -/
theorem read16_of_stale_status {cLb cHb : CommandCodes → Byte} {s t u : State} {lb status : Byte}
    (hlb : rabNamed cLb s = some (lb, t)) (hstatus : rabNamed CommandCodes.cmdStatus t = some (status, u))
    (hne : status ≠ 0x00#8) : read16 cLb cHb s = some (none, u) := by
  rw [read16, hostThen_of_some hlb, hostThen_of_some hstatus, if_pos (bne_iff_ne.mpr hne)]
  rfl

/-- Settles O48: the low byte's and the status's reads are one accepted request each, and the read ends after them. -/
theorem staleStatusSkipsHighByte : Obligations.StaleStatusSkipsHighByte := by
  intro cLb cHb s hr hh n hne
  obtain ⟨t, new, hlb, htrace, hcount, hcodes, hready⟩ := rabNamed_one_request cLb hr hh
  obtain ⟨u, new', hstatus, htrace', hcount', -⟩ :=
    rabNamed_one_request CommandCodes.cmdStatus hready.reqReady hready.sdaHeld
  rw [hcodes, hready.sampleAt] at hstatus
  refine ⟨u, new ++ new', read16_of_stale_status hlb hstatus hne, ?_, ?_⟩
  · rw [htrace', htrace, List.append_assoc]
  · rw [List.countP_append, hcount, hcount']

end Sys2Proof.Machine
end

section
/-! PROOFS. The host's liberties and duties (60_exceptions.md R214): what its move does to the port, how long an offer stands
there, and that it may offer a request or raise `rst` in any cycle. -/

namespace Sys2Proof.Machine

/-! ## The host's move by what the schedule says -/

/-- A cycle that leaves `rst` as it is and offers nothing only goes by. -/
theorem State.hostMove_quiet (s : State) {r : Bool} {cs : List HostCycle} (h : s.schedule = ⟨r, false⟩ :: cs)
    (hr : s.rst = r) : s.hostMove = { s with schedule := cs } := by
  subst hr
  rw [State.hostMove, h]; rfl

/-- A cycle that leaves `rst` as it is and makes an offer puts the next request on the port, if that is free. -/
theorem State.hostMove_offering (s : State) {r : Bool} {cs : List HostCycle} (h : s.schedule = ⟨r, true⟩ :: cs)
    (hr : s.rst = r) : s.hostMove = { s with schedule := cs }.offerNext := by
  subst hr
  rw [State.hostMove, h]; rfl

theorem State.offerNext_free (s : State) {w : RequestWord} {ws : List RequestWord} (hv : s.reqValid = false)
    (hp : s.hostProgram = w :: ws) : s.offerNext = { s.offer w with hostProgram := ws } := by
  rw [State.offerNext, hv, hp]; rfl

/-- While a request stands on the port, the host's move leaves all its offers as they are. -/
theorem State.offers_hostMove_held (s : State) (h : s.reqValid = true) : s.hostMove.offers = s.offers := by
  rw [State.hostMove_held s h]; rfl

/-! ## An offer is accepted or stands -/

/-- A core that is not ready takes nothing from the port, be it in reset or busy (R25). -/
theorem tick_not_ready_keeps_offers (s t : State) (hv : s.reqValid = true) (hn : s.reqReady = false)
    (h : tick s = .next t) : t.offers = s.offers := by
  have hidle (hp : s.pos = .idle) (hr : s.rst = false) : False := by
    rw [(s.reqReady_iff).mpr ⟨hp, hr⟩] at hn; cases hn
  obtain ⟨-, rfl⟩ | ⟨hr, -, hp, -, -⟩ | ⟨hr, -, hp, -, -⟩ | ⟨ph, k, -, -, -, rfl⟩ := tick_next_cases s t h
  · exact State.offers_hostMove_held s.takeReset hv
  · exact (hidle hp hr).elim
  · exact (hidle hp hr).elim
  · have hoffers : (runEdge ph k s).offers = s.offers := congrArg (fun p => p.2.1) (runEdge_keeps ph k s).1
    have hvalid : (runEdge ph k s).reqValid = s.reqValid := congrArg Prod.fst hoffers
    exact (State.offers_hostMove_held _ (hvalid.trans hv)).trans hoffers

/-- An edge that answers a next state in a core out of reset saw no contention (R23). -/
theorem not_contends_of_tick {s t : State} (hr : s.rst = false) (h : tick s = .next t) : s.contends = false := by
  cases hc : s.contends with
  | false => rfl
  | true => rw [tick_contends s hr hc] at h; cases h

/-- Settles O50: a ready core's edge is the accepting edge, and no other edge touches an offer that stands on the port. -/
theorem offerHeldUntilAccepted : Obligations.OfferHeldUntilAccepted := by
  intro s t hv h
  refine ⟨fun hready => ?_, fun hn => tick_not_ready_keeps_offers s t hv hn h⟩
  have hc := not_contends_of_tick ((s.reqReady_iff).mp hready).2 h
  obtain rfl := Host.Outcome.next.inj ((tick_accept s hready hv hc).symm.trans h)
  exact ⟨by simp, by simp, by simp, trace_of_rtrace_cons (by simp)⟩

/-! ## An offer in any cycle -/

/-- An edge of a ready core with a free port is idle, outside contention (R26, R27). -/
theorem tick_idle (s : State) (hready : s.reqReady = true) (hv : s.reqValid = false) (hc : s.contends = false) :
    tick s = .next s.idleEdge.hostMove := by
  obtain ⟨hp, hr⟩ := (s.reqReady_iff).mp hready
  unfold tick coreEdge
  rw [hr, hc, hp, hv]; rfl

/-- A ready core with a free port waits for an offer as long as the schedule makes none: no more than the pulse of the last
response goes by, and the schedule. -/
theorem ticks_quiet (n : Nat) (s : State) {cs : List HostCycle} (hs : s.schedule = List.replicate n ⟨false, false⟩ ++ cs)
    (hready : s.reqReady = true) (hv : s.reqValid = false) (hc : s.contends = false) :
    ∃ p, ticks n s = .next { s with rspPulse := p, schedule := cs } := by
  induction n generalizing s with
  | zero => exact ⟨s.rspPulse, by rw [ticks_zero]; cases s; cases hs; rfl⟩
  | succ n ih =>
    obtain ⟨-, hr⟩ := (s.reqReady_iff).mp hready
    have hedge : tick s = .next { s with rspPulse := false, schedule := List.replicate n ⟨false, false⟩ ++ cs } := by
      rw [tick_idle s hready hv hc, State.hostMove_quiet s.idleEdge hs hr]; rfl
    rw [ticks_succ_next n s _ hedge]
    exact ih { s with rspPulse := false, schedule := _ } rfl hready hv hc

/-- A ready core with a free port finds the host's next request there after the edge at which the schedule offers it. -/
theorem tick_offering (s : State) {w : RequestWord} {ws : List RequestWord} {cs : List HostCycle}
    (hs : s.schedule = ⟨false, true⟩ :: cs) (hp : s.hostProgram = w :: ws) (hready : s.reqReady = true)
    (hv : s.reqValid = false) (hc : s.contends = false) :
    tick s = .next { s.offer w with rspPulse := false, hostProgram := ws, schedule := cs } := by
  obtain ⟨-, hr⟩ := (s.reqReady_iff).mp hready
  rw [tick_idle s hready hv hc, State.hostMove_offering s.idleEdge hs hr,
    State.offerNext_free { s.idleEdge with schedule := cs } hv hp]
  rfl

/-- Settles O51: the core idles through the quiet cycles, the next edge offers the request, and the one after accepts it. -/
theorem hostMayOfferInAnyCycle : Obligations.HostMayOfferInAnyCycle := by
  intro s n w ws cs hs hp hready hv hc
  obtain ⟨p, hquiet⟩ := ticks_quiet n s hs hready hv hc
  refine ⟨_, _, _, hquiet, hready, hv, rfl, tick_offering _ rfl hp hready hv hc, hready, rfl, rfl, rfl,
    tick_accept _ hready rfl hc, ?_, ?_⟩
  · rw [State.busy_hostMove, State.busy_accept]
  · exact trace_of_rtrace_cons (by rw [State.hostMove_rtrace]; rfl)

/-! ## A reset in any cycle -/

/-- An edge uses up one cycle of the schedule, takes `rst` from it, and leaves the slave's hold as it was (R214; logs 4, 5). -/
theorem tick_next_schedule (s t : State) (h : tick s = .next t) :
    t.schedule = s.schedule.tail ∧ t.rst = (s.schedule.head?.map HostCycle.rst).getD false ∧ t.sdaHeld = s.sdaHeld := by
  obtain ⟨-, rfl⟩ | ⟨-, -, -, -, rfl⟩ | ⟨-, -, -, -, rfl⟩ | ⟨ph, k, -, -, -, rfl⟩ := tick_next_cases s t h
  · simp
  · simp
  · simp
  · obtain ⟨hhost, hset⟩ := runEdge_keeps ph k s
    have hsched : (runEdge ph k s).schedule = s.schedule := congrArg (fun p => p.2.2) hhost
    simp [hsched, sdaHeld_of_settings hset]

/-- Where the slave lets SDA go, no edge stops the core (R23). -/
theorem tick_of_not_held (s : State) (h : s.sdaHeld = false) : ∃ t, tick s = .next t := by
  have hc := contends_of_not_held h
  cases hr : s.rst with
  | true => exact ⟨_, tick_reset s hr⟩
  | false =>
    cases hp : s.pos with
    | run ph k => exact ⟨_, tick_run s ph k hr hc hp⟩
    | idle =>
      have hready := (s.reqReady_iff).mpr ⟨hp, hr⟩
      cases hv : s.reqValid with
      | true => exact ⟨_, tick_accept s hready hv hc⟩
      | false => exact ⟨_, tick_idle s hready hv hc⟩

/-- Where the slave lets SDA go, `n` edges use up `n` cycles of the schedule, whatever the core does at them. -/
theorem ticks_of_not_held (n : Nat) (s : State) (h : s.sdaHeld = false) :
    ∃ t, ticks n s = .next t ∧ t.schedule = s.schedule.drop n ∧ t.sdaHeld = false := by
  induction n generalizing s with
  | zero => exact ⟨s, rfl, rfl, h⟩
  | succ n ih =>
    obtain ⟨u, hu⟩ := tick_of_not_held s h
    obtain ⟨hsched, -, hheld⟩ := tick_next_schedule s u hu
    obtain ⟨t, ht, hdrop, hfree⟩ := ih u (hheld.trans h)
    exact ⟨t, (ticks_succ_next n s u hu).trans ht, by rw [hdrop, hsched, List.drop_tail], hfree⟩

/-- Settles O52: the edges before it do not stop the core and leave the schedule at the reset's cycle, the next edge raises
`rst`, and the one after is a reset edge. The cycles before are used up alike whether they raise `rst` or not. -/
theorem hostMayResetInAnyCycle : Obligations.HostMayResetInAnyCycle := by
  intro s pre b cs hs _ _ hh
  obtain ⟨q, hq, hdrop, hfree⟩ := ticks_of_not_held pre.length s hh
  rw [hs, List.drop_left] at hdrop
  obtain ⟨t, ht⟩ := tick_of_not_held q hfree
  have hrst : t.rst = true := by
    obtain ⟨-, hhead, -⟩ := tick_next_schedule q t ht
    rw [hhead, hdrop]; rfl
  obtain ⟨hready, hrsp⟩ := t.port_in_reset hrst
  refine ⟨t, _, (ticks_add _ 1 s q hq).trans (ticks_succ_next 0 q t ht), hrst, hready, hrsp, tick_reset t hrst, ?_⟩
  simp [State.rspValid, State.trace]

end Sys2Proof.Machine
end

section
/-! PROOFS. The reset edge and the idle edge (70_reset_and_hazards.md R230 to R232, 10_state.md R26, R27, R36), and the wait
content of the primitive ops (70_reset_and_hazards.md R240). -/

namespace Sys2Proof.Machine

/-! ## The host's move looks at the host's side alone -/

/-- Whether a request goes to the port, and which, is decided by the offers alone (R214). -/
theorem State.hostSide_offerNext_congr {s t : State} (h : t.hostSide = s.hostSide) :
    t.offerNext.hostSide = s.offerNext.hostSide := by
  have hrst : t.rst = s.rst := congrArg Prod.fst h
  have hsched : t.schedule = s.schedule := congrArg (fun p => p.2.2) h
  have hvalid : t.reqValid = s.reqValid := congrArg (fun p => p.2.1.1) h
  have hprogram : t.hostProgram = s.hostProgram := congrArg (fun p => p.2.1.2.2.2) h
  rw [State.offerNext, State.offerNext, hvalid, hprogram]
  cases s.reqValid with
  | true => exact h
  | false =>
    cases s.hostProgram with
    | nil => exact h
    | cons w ws => simp [State.hostSide, State.offers, hrst, hsched]

/-- What the host does to its inputs does not depend on the core (R214; log 5). -/
theorem State.hostSide_hostMove_congr {s t : State} (h : t.hostSide = s.hostSide) :
    t.hostMove.hostSide = s.hostMove.hostSide := by
  have hoffers : t.offers = s.offers := congrArg (fun p => p.2.1) h
  have hsched : t.schedule = s.schedule := congrArg (fun p => p.2.2) h
  have hmoved (r : Bool) (cs : List HostCycle) :
      { t with rst := r, schedule := cs }.hostSide = { s with rst := r, schedule := cs }.hostSide :=
    congrArg (fun o => (r, o, cs)) hoffers
  rw [State.hostMove, State.hostMove, hsched]
  cases s.schedule with
  | nil => exact State.hostSide_offerNext_congr (hmoved false _)
  | cons c cs =>
    obtain ⟨r, offers⟩ := c
    cases offers with
    | true => exact State.hostSide_offerNext_congr (hmoved r cs)
    | false => exact hmoved r cs

/-! ## Reset and idle -/

/-- A step in reset is a reset edge: no request is accepted there (R230). -/
theorem step_reset (s : State) (hr : s.rst = true) : step s = .next s.takeReset.hostMove := by
  rw [step_of_not_runsRequest s (by simp [State.runsRequest, (s.port_in_reset hr).1]), tick_reset s hr]

/-- A step of a ready core with a free port is an idle edge, outside contention (R232). -/
theorem step_idle (s : State) (hready : s.reqReady = true) (hv : s.reqValid = false) (hc : s.contends = false) :
    step s = .next s.idleEdge.hostMove := by
  rw [step_of_not_runsRequest s (by simp [State.runsRequest, hv]), tick_idle s hready hv hc]

/-- Settles O2: a core in reset is not ready, and its step is a reset edge, which keeps nothing of a running request. -/
theorem resetEdgeAbandonsRequest : Obligations.ResetEdgeAbandonsRequest := by
  intro s hr
  obtain ⟨hready, hrsp⟩ := s.port_in_reset hr
  refine ⟨hready, hrsp, fun i => exec_not_ready i s hready, _, step_reset s hr, ?_⟩
  have hhost : s.takeReset.hostMove.hostSide = s.hostMove.hostSide := State.hostSide_hostMove_congr rfl
  simp [hhost, State.rspValid, State.trace, State.reqReady, State.script]

/-- Settles O3: the step is an idle edge, which ends the pulse and writes nothing else. -/
theorem idleStepEmitsNothing : Obligations.IdleStepEmitsNothing := by
  intro s hready hv hc
  have hhost : s.idleEdge.hostMove.hostSide = s.hostMove.hostSide := State.hostSide_hostMove_congr rfl
  refine ⟨_, step_idle s hready hv hc, ?_⟩
  simp [hhost, ((s.reqReady_iff).mp hready).1, State.rspValid, State.trace, State.innerRegs, State.script, State.settings]

/-! ## Wait content -/

theorem waitUnits_busStartEvents : waitUnits busStartEvents = Config.tSuSta + Config.tHdSta := by
  simp [busStartEvents, waitUnits]

theorem waitUnits_busStopEvents : waitUnits busStopEvents = 3 * Config.tStop := by
  simp only [busStopEvents, waitUnits]; omega

theorem waitUnits_sendNakEvents : waitUnits sendNakEvents = 3 * Config.tPh := by
  simp only [sendNakEvents, waitUnits]; omega

theorem busDelay_busRun (n : Nat) (s : State) : BusRun [.wait n] s (runActs (busDelay n) s) :=
  runActs_busRun_of_rtrace rfl (congrArg State.rtrace (runActs_busDelay n s))

/-- An accepted instruction whose body is one bus run and a Respond waits as long as that run does. -/
theorem exec_waitUnits {i : Instr} {s u : State} {es : List Event} {d : Byte} {e : Bool} {units : Nat}
    (hacc : Accepted i s) (hrun : BusRun es (s.start (opCodeOf i) (argByteOf s.codes i)) u)
    (hbody : bodyOf i (s.start (opCodeOf i) (argByteOf s.codes i)) = u.respond d e) (hunits : waitUnits es = units) :
    ∃ es t, exec i s = .next t ∧ Traced (opCodeOf i) (argByteOf s.codes i) es s t ∧ waitUnits es = units := by
  obtain ⟨hexec, -, htraced⟩ := exec_of_busRun hacc hrun hbody
  exact ⟨es, _, hexec, htraced, hunits⟩

/-- Settles O35: each op's body is its procedure, whose events wait the units the spec adds up. -/
theorem waitContentPerOp : Obligations.WaitContentPerOp := by
  intro a s i op units h hacc
  simp only [List.mem_cons, List.not_mem_nil, or_false, Prod.mk.injEq] at h
  obtain ⟨rfl, rfl, rfl⟩ | ⟨rfl, rfl, rfl⟩ | ⟨rfl, rfl, rfl⟩ | ⟨rfl, rfl, rfl⟩ | ⟨rfl, rfl, rfl⟩ | ⟨rfl, rfl, rfl⟩ |
    ⟨rfl, rfl, rfl⟩ | ⟨rfl, rfl, rfl⟩ := h
  · refine exec_waitUnits hacc (busDelay_busRun (delayUnits _) _) rfl ?_
    simp [waitUnits, delayUnits, argByteOf]
  · exact exec_waitUnits hacc (busStart_busRun _) rfl waitUnits_busStartEvents
  · exact exec_waitUnits hacc (busStop_busRun _) rfl waitUnits_busStopEvents
  · exact exec_waitUnits hacc (sendByte_busRun _ _) rfl (waitUnits_sendByteEvents _)
  · exact exec_waitUnits hacc (readByte_busRun _) rfl (waitUnits_readByteEvents _ _)
  · exact exec_waitUnits hacc (checkAck_busRun _) rfl (waitUnits_releasedBitEvents _)
  · exact exec_waitUnits hacc (sendAck_busRun _) rfl (waitUnits_sendBitEvents false)
  · exact exec_waitUnits hacc (sendNak_busRun _) rfl waitUnits_sendNakEvents

end Sys2Proof.Machine
end

section
/-! PROOFS. The request words the spec's test vectors write out (95_test_vectors.md L2.1, P1, P2, P6). -/

namespace Sys2Proof.Machine

/-- Settles O12: each word is put together from its op code and argument, which its decoding reads back. -/
theorem specWordsDecode : Obligations.SpecWordsDecode :=
  ⟨decodeRequest_requestWord 0x9#4 0x71#8, decodeRequest_requestWord 0x4#4 0xA5#8,
    decodeRequest_requestWord 0x2#4 0xFF#8, decodeRequest_requestWord 0x0#4 0x00#8,
    decodeRequest_requestWord 0xF#4 0x12#8, decodeRequest_requestWord 0xA#4 0x00#8,
    decodeRequest_requestWord 0x1#4 0xFF#8, decodeRequest_requestWord 0x3#4 0x00#8,
    decodeRequest_requestWord 0x6#4 0x00#8, decodeRequest_requestWord 0x5#4 0x00#8,
    decodeRequest_requestWord 0x7#4 0x00#8, decodeRequest_requestWord 0x8#4 0x00#8⟩

end Sys2Proof.Machine
end
